-- ==== Sys2Proof/Word.lean ====
section
/-! DEFINITION. The words the spec treats as bits (00_scope.md R5, R8; 10_state.md R10 to R26). -/

namespace Sys2Proof

/-- A byte: every datum on the bus and on the host interface (20_memory.md R44). -/
abbrev Byte := BitVec 8

/-- A 7-bit bus address (20_memory.md R40, `ADDR_W` of 00_scope.md R5). -/
abbrev BusAddr := BitVec 7

/-- An 11-bit step word, `op` in bits 10:8 and `data` in bits 7:0 (30_encoding.md R69). -/
abbrev StepWord := BitVec 11

/-- A 16-bit identity code (10_state.md R21). -/
abbrev IdentCode := BitVec 16

end Sys2Proof
end

