-- ==== Sys2Proof/Config.lean ====
section
/-! DEFINITION. What an implementation fixes (00_scope.md R6) and the free values (10_state.md R26, R33). -/

namespace Sys2Proof.Config

/-- `WAIT_LIMIT`: a natural number `>= 1` of polls, or `INF` (00_scope.md R6, D2). -/
inductive WaitLimit where
  | inf
  | polls (n : Nat) (pos : 1 ≤ n)
deriving DecidableEq, Repr

/-- `REG_READ_MODE` (00_scope.md R6, D14). -/
inductive RegReadMode where
  | combined
  | split
deriving DecidableEq, Repr

/-- The parameters the spec leaves `OPEN` (00_scope.md R6). The two distinctness fields are the valid bindings
of 93_implementation_defined.md U12 and U13: an invalid binding cannot be built. -/
structure OpenParams where
  /-- `ADDR_PRIMARY` -/
  addrPrimary : BusAddr
  /-- `ADDR_SECONDARY` -/
  addrSecondary : BusAddr
  /-- `REDIRECT_REG` -/
  redirectReg : Byte
  /-- `REDIRECT_VAL` -/
  redirectVal : Byte
  /-- `ID_NUNCHUK` -/
  idNunchuk : IdentCode
  /-- `ID_CLASSIC` -/
  idClassic : IdentCode
  /-- `ID_MOTIONPLUS` -/
  idMotionPlus : IdentCode
  /-- `WAIT_LIMIT` -/
  waitLimit : WaitLimit
  /-- `SETTLE_TICKS` -/
  settleTicks : Nat
  /-- U13 -/
  addrDistinct : addrSecondary ≠ addrPrimary
  /-- U12 -/
  idDistinct : idNunchuk ≠ idClassic ∧ idNunchuk ≠ idMotionPlus ∧ idClassic ≠ idMotionPlus
deriving DecidableEq, Repr

/-- A full parameter binding: the `OPEN` parameters and the two that are decided but "kept as named constants so
that the alternative can be modelled" (92_eei_decisions.md). -/
structure Params extends OpenParams where
  /-- `REG_READ_MODE`, decided `combined` (D14). -/
  regReadMode : RegReadMode := .combined
  /-- `FALLTHROUGH`, decided `true` (D20). -/
  fallthrough : Bool := true
deriving DecidableEq, Repr

/-- The binding `V0` of the test vectors (00_scope.md R6, 95_test_vectors.md): a test value, used by no rule. -/
def v0 : Params where
  addrPrimary := 0x52
  addrSecondary := 0x53
  redirectReg := 0xFE
  redirectVal := 0x04
  idNunchuk := 0x0000
  idClassic := 0x0101
  idMotionPlus := 0x0405
  waitLimit := .polls 1000 (by decide)
  settleTicks := 0
  addrDistinct := by decide
  idDistinct := by decide

/-- The `OPEN` parameters of the machine at reset: any binding. No body, so nothing can be proved of one of them
that is not proved of all (log entry 3). -/
opaque openBinding [Inhabited OpenParams] : OpenParams

/-- The binding the machine has at reset: `OPEN` parameters free, decided ones as D14 and D20 decide. -/
def binding : Params :=
  { @openBinding ⟨v0.toOpenParams⟩ with regReadMode := .combined, fallthrough := true }

/-- The wait count `w` of an environment answer: "a natural number or `INF`" (10_state.md R33). -/
inductive Wait where
  | polls (n : Nat)
  | never
deriving DecidableEq, Repr, Inhabited

/-- The environment's answer to one waiting bus step (10_state.md R33). -/
structure Answer where
  w : Wait
  status : Byte
  rx : Byte
deriving DecidableEq, Repr, Inhabited

/-- The free input of 40_bus_steps.md R90: "draw (w, status, rx) from the environment", "under no law" (U19). -/
opaque freeAnswer : Nat → Answer

/-- The content of a byte the spec leaves unspecified (93_implementation_defined.md U2). -/
opaque unspecifiedByte : Nat → Byte

end Sys2Proof.Config
end

