-- ==== Sys2Proof/Syntax.lean ====
section
/-! DEFINITION. The 18 operations of spec/opcode_table.json (30_encoding.md R77), one constructor each. -/

namespace Sys2Proof

/-- An operation of the block, at one of its three levels (00_scope.md R2). -/
inductive Instr where
  /-- `XACT.INV` (41_transaction.md R111) -/
  | xactInv (addr : BusAddr)
  /-- `XACT.W` (41_transaction.md R112); `WLEN` is the length of the payload -/
  | xactW (addr : BusAddr) (payload : List Byte)
  /-- `XACT.R` (41_transaction.md R113) -/
  | xactR (addr : BusAddr) (rlen : Byte)
  /-- `XACT.WR` (41_transaction.md R114) -/
  | xactWr (addr : BusAddr) (payload : List Byte) (rlen : Byte)
  /-- `TICK` (43_identification.md R141) -/
  | tick
  /-- `REGWR a, r, [v0 .. v(n-1)]` (42_register_protocol.md R131) -/
  | regwr (addr : BusAddr) (reg : Byte) (values : List Byte)
  /-- `REGRD a, r, n` (42_register_protocol.md R132) -/
  | regrd (addr : BusAddr) (reg : Byte) (count : Byte)
  /-- `INIT` (43_identification.md R143) -/
  | init
  /-- `POLL` (43_identification.md R150) -/
  | poll
  /-- `START` (40_bus_steps.md R92) -/
  | start
  /-- `RSTART` (40_bus_steps.md R93) -/
  | rstart
  /-- `SLAW` (40_bus_steps.md R94) -/
  | slaw (addr : BusAddr)
  /-- `SLAR` (40_bus_steps.md R95) -/
  | slar (addr : BusAddr)
  /-- `TXD` (40_bus_steps.md R96) -/
  | txd (data : Byte)
  /-- `RXA` (40_bus_steps.md R97) -/
  | rxa
  /-- `RXN` (40_bus_steps.md R101) -/
  | rxn
  /-- `STOP` (40_bus_steps.md R98) -/
  | stop
  /-- `REARM` (40_bus_steps.md R99) -/
  | rearm
deriving DecidableEq, Repr

end Sys2Proof
end

