-- ==== Sys2Proof/WellFormed.lean ====
section
/-! DEFINITION. Which instruction values the spec's operand ranges admit. -/

namespace Sys2Proof

/-- `MAXLEN` (00_scope.md R6, D9). -/
def maxLen : Nat := 255

/-- The operand checks: `XACT.W` and `XACT.WR` have 1 to 255 payload bytes (R112, R114), `XACT.R` and `XACT.WR`
read at least one byte (R113, R114), `REGWR` has `n >= 1` and `n + 1 <= MAXLEN` (R131), `REGRD` has `n >= 1`
(R132). -/
def Instr.wf : Instr → Bool
  | .xactInv _ => true
  | .xactW _ p => decide (1 ≤ p.length ∧ p.length ≤ maxLen)
  | .xactR _ n => n != 0
  | .xactWr _ p n => decide (1 ≤ p.length ∧ p.length ≤ maxLen) && n != 0
  | .tick => true
  | .regwr _ _ vs => decide (1 ≤ vs.length ∧ vs.length + 1 ≤ maxLen)
  | .regrd _ _ n => n != 0
  | .init => true
  | .poll => true
  | .start => true
  | .rstart => true
  | .slaw _ => true
  | .slar _ => true
  | .txd _ => true
  | .rxa => true
  | .rxn => true
  | .stop => true
  | .rearm => true

end Sys2Proof
end

