-- ==== Sys2Proof/Decode.lean ====
section
/-! DEFINITION. The decoders of the two encoded interfaces (30_encoding.md sections 1 and 2), the encoder written
from the same tables, and the expansions of the operations that have no encoding (R76). -/

namespace Sys2Proof

/-- What the bytes presented at the host command interface hold at their front (30_encoding.md R60, R62, R67). -/
inductive HostDecode where
  /-- a complete command, and the bytes after it -/
  | command (i : Instr) (rest : List Byte)
  /-- a reserved first byte `0x81` to `0xFF`, and the bytes after it (R67) -/
  | reserved (b : Byte) (rest : List Byte)
  /-- not (yet) a complete command (R62, U11) -/
  | incomplete
deriving DecidableEq, Repr

/-- What an 11-bit step word asks for (30_encoding.md R69, R74). -/
inductive StepWordDecode where
  | step (i : Instr)
  /-- `op = 7` (U5) -/
  | reservedOp
  /-- non-zero `data` of a step whose data "must be 0" (U5) -/
  | nonzeroData
deriving DecidableEq, Repr

/-- The words of an instruction. -/
inductive Encoded where
  /-- a host command: its bytes, first byte first -/
  | host (bytes : List Byte)
  /-- a bus step: its step word -/
  | step (word : StepWord)
  /-- a macro-operation has no encoding of its own (R131, R132, R143, R150) -/
  | none
deriving DecidableEq, Repr

/-- The four `XACT` forms, tested in the order of 30_encoding.md R63. -/
def xactForm (a : BusAddr) (payload : List Byte) (wlen rlen : Byte) : Instr :=
  if wlen = 0 ∧ rlen = 0 then .xactInv a
  else if rlen = 0 then .xactW a payload
  else if wlen = 0 then .xactR a rlen
  else .xactWr a payload rlen

/-- A host command from the front of the presented bytes: family by bit 7 of the first byte (R60), header (R61),
payload of `WLEN` bytes (R62), `TICK` (R65), reserved bytes (R67). -/
def decodeHost : List Byte → HostDecode
  | [] => .incomplete
  | b0 :: tail =>
    if b0.msb then
      if b0 = 0x80 then .command .tick tail else .reserved b0 tail
    else
      match tail with
      | wlen :: rlen :: body =>
        if body.length < wlen.toNat then .incomplete
        else .command (xactForm (b0.setWidth 7) (body.take wlen.toNat) wlen rlen) (body.drop wlen.toNat)
      | _ => .incomplete

/-- A step word from its `op` and `data` (30_encoding.md R69). -/
def stepWordOf (op : BitVec 3) (data : Byte) : StepWord := op ++ data

/-- `op = word[10:8]` (30_encoding.md R69). -/
def StepWord.op (w : StepWord) : BitVec 3 := w.extractLsb' 8 3

/-- `data = word[7:0]` (30_encoding.md R69). -/
def StepWord.data (w : StepWord) : Byte := w.extractLsb' 0 8

/-- The bus step of a step word (30_encoding.md R69). `RSTART` has the word of `START`: "the name is used for the
`START` that the engine issues in phase `R_START` after a write phase", which `afterWrite` says. -/
def decodeStepWord (afterWrite : Bool) (w : StepWord) : StepWordDecode :=
  let d := StepWord.data w
  match (StepWord.op w).toNat with
  | 0 => if d = 0 then .step (if afterWrite then .rstart else .start) else .nonzeroData
  | 1 => .step (if d.getLsbD 0 then .slar (d.extractLsb' 1 7) else .slaw (d.extractLsb' 1 7))
  | 2 => .step (.txd d)
  | 3 => if d = 0 then .step .rxa else .nonzeroData
  | 4 => if d = 0 then .step .rxn else .nonzeroData
  | 5 => if d = 0 then .step .stop else .nonzeroData
  | 6 => if d = 0 then .step .rearm else .nonzeroData
  | _ => .reservedOp

/-- The header of 30_encoding.md R61 as bytes: `0b0aaaaaaa`, `WLEN`, `RLEN`. -/
def xactHeader (a : BusAddr) (wlen rlen : Byte) : List Byte := [a.setWidth 8, wlen, rlen]

/-- The words of an instruction, from 30_encoding.md R61 to R65 (host commands) and R69, R71 (bus steps). -/
def encode : Instr → Encoded
  | .xactInv a => .host (xactHeader a 0 0)
  | .xactW a p => .host (xactHeader a (BitVec.ofNat 8 p.length) 0 ++ p)
  | .xactR a n => .host (xactHeader a 0 n)
  | .xactWr a p n => .host (xactHeader a (BitVec.ofNat 8 p.length) n ++ p)
  | .tick => .host [0x80]
  | .regwr _ _ _ => .none
  | .regrd _ _ _ => .none
  | .init => .none
  | .poll => .none
  | .start => .step (stepWordOf 0 0)
  | .rstart => .step (stepWordOf 0 0)
  | .slaw a => .step (stepWordOf 1 (a ++ 0#1))
  | .slar a => .step (stepWordOf 1 (a ++ 1#1))
  | .txd d => .step (stepWordOf 2 d)
  | .rxa => .step (stepWordOf 3 0)
  | .rxn => .step (stepWordOf 4 0)
  | .stop => .step (stepWordOf 5 0)
  | .rearm => .step (stepWordOf 6 0)

/-- `REG_INIT1`, `VAL_INIT1`, `REG_INIT2`, `VAL_INIT2`, `REG_IDENT`, `IDENT_LEN`, `REG_REPORT`, `SAMPLE_LEN`: the
constants of 00_scope.md R5. -/
def regInit1 : Byte := 0xF0
def valInit1 : Byte := 0x55
def regInit2 : Byte := 0xFB
def valInit2 : Byte := 0x00
def regIdent : Byte := 0xFE
def identLen : Byte := 2
def regReport : Byte := 0x00
def sampleLen : Byte := 6

/-- The pseudo-operations and their expansions (30_encoding.md R76), one level at a time; every other operation is
its own expansion. -/
def expansion (p : Config.Params) : Instr → List Instr
  | .regwr a r vs => [.xactW a (r :: vs)]
  | .regrd a r n =>
    match p.regReadMode with
    | .combined => [.xactWr a [r] n]
    | .split => [.xactW a [r], .xactR a n]
  | .init => [.regwr p.addrSecondary p.redirectReg [p.redirectVal], .regwr p.addrPrimary regInit1 [valInit1],
      .regwr p.addrPrimary regInit2 [valInit2], .regrd p.addrPrimary regIdent identLen]
  | .poll => [.regrd p.addrPrimary regReport sampleLen]
  | .xactInv a => [.xactInv a]
  | .xactW a p => [.xactW a p]
  | .xactR a n => [.xactR a n]
  | .xactWr a p n => [.xactWr a p n]
  | .tick => [.tick]
  | .start => [.start]
  | .rstart => [.rstart]
  | .slaw a => [.slaw a]
  | .slar a => [.slar a]
  | .txd d => [.txd d]
  | .rxa => [.rxa]
  | .rxn => [.rxn]
  | .stop => [.stop]
  | .rearm => [.rearm]

/-- The bytes of an `n`-byte word, most significant byte first (30_encoding.md R61: "first byte most
significant"). -/
def wordBytes : Nat → Nat → List Byte
  | 0, _ => []
  | n + 1, w => BitVec.ofNat 8 (w >>> (8 * n)) :: wordBytes n w

/-- Host bytes that hold the word `w` of `nbits` bits, followed by the zero bytes a longer command needs: the two
length bytes of a header, and as many payload bytes as its second byte (`WLEN`, R61) says. -/
def tableHostBytes (nbits w : Nat) : List Byte :=
  let bytes := wordBytes ((nbits + 7) / 8) w
  bytes ++ List.replicate (2 + (bytes.getD 1 0).toNat) 0

/-- The instruction the decoders read from a word numbered as spec/opcode_table.json numbers it: step words have 11
bits (two whole bytes), every other row is a host command. -/
def decodeTableWord (nbits w : Nat) : Option Instr :=
  if nbits = 11 ∨ nbits = 16 then
    if w < 2 ^ 11 then
      match decodeStepWord false (BitVec.ofNat 11 w) with
      | .step i => some i
      | _ => none
    else none
  else
    match decodeHost (tableHostBytes nbits w) with
    | .command i _ => some i
    | _ => none

end Sys2Proof
end

