-- ==== Sys2Proof/Machine/State.lean ====
section
/-! DEFINITION. The state of the block (10_state.md), the environment it is connected to (10_state.md R30 to R33),
and the state after reset (70_reset_and_hazards.md R201). -/

namespace Sys2Proof.Machine

/-- The result codes (30_encoding.md R68); codes 6 and 7 are "never produced" and have no constructor (U6). -/
inductive Result where
  | ok
  | invalidArgument
  | addressNack
  | dataNack
  | arbitrationLost
  | timeout
deriving DecidableEq, Repr

/-- `phase`, the BTD's program counter (10_state.md R17); codes 9 to 15 are never taken (U6). -/
inductive Phase where
  | idle
  | wStart
  | wAddr
  | wData
  | rStart
  | rAddr
  | rData
  | stopping
  | rearming
deriving DecidableEq, Repr

/-- `pstate` (10_state.md R22). -/
inductive PState where
  | uninitialized
  | active
deriving DecidableEq, Repr

/-- `pstep` (10_state.md R23). -/
inductive PStep where
  | idle
  | redirect
  | hs1
  | hs2
  | ident
  | poll
  | identRd
  | pollRd
deriving DecidableEq, Repr

/-- `pclass` (10_state.md R24). -/
inductive PClass where
  | none
  | nunchuk
  | classicController
  | motionPlus
  | unknown
deriving DecidableEq, Repr

/-- The decode tables `dtable` selects (10_state.md R27). -/
inductive DTable where
  | motionSensor
  | classic
  | inertial
deriving DecidableEq, Repr

/-- The mnemonic of a bus step, as the tables of 30_encoding.md R69 and 40_bus_steps.md R100 list them ("`RSTART`
counts as `START`"). -/
inductive StepKind where
  | start
  | slaw
  | slar
  | txd
  | rxa
  | rxn
  | stop
  | rearm
deriving DecidableEq, Repr

/-- What came back for one step word (40_bus_steps.md R90). -/
inductive Reply where
  /-- `STOP`, `REARM`: "no wait, no answer" -/
  | noAnswer
  /-- the ready flag rose after `w` low polls, with a status and a received byte -/
  | ready (w : Nat) (status : Byte) (rx : Byte)
  /-- `NOT_READY`: "the wait gave up" -/
  | notReady
  /-- the ready flag never rises and `WAIT_LIMIT = INF`: the hang (R183) -/
  | never
deriving DecidableEq, Repr

/-- One token of the bus trace (30_encoding.md R75, 40_bus_steps.md R102): the step word and its answer. -/
structure Token where
  word : StepWord
  reply : Reply
deriving DecidableEq, Repr

/-- A peripheral's registers: (address, byte) pairs in one canonical form (`Memory.wf`). -/
abbrev Memory := List Host.Cell

/-- The selection mode `sel` of an `ENV0` peripheral (10_state.md R31). -/
inductive Selection where
  | none
  | wrFirst
  | wr
  | rd
deriving DecidableEq, Repr

/-- A peripheral of the reference environment (10_state.md R31). -/
structure Peripheral where
  /-- the bus address it answers at -/
  paddr : BusAddr
  /-- the register file `reg[0..255]` -/
  reg : Memory
  /-- the register pointer -/
  ptr : Byte
  sel : Selection
  /-- it discards commands sent immediately after power-up -/
  settling : Bool
  /-- it is of the secondary type -/
  secondary : Bool
  redirectPending : Bool
deriving DecidableEq, Repr

/-- The reference environment `ENV0` (10_state.md R30 to R32). -/
structure Env0 where
  owned : Bool
  /-- the peripherals attached to the bus -/
  peripherals : List Peripheral
deriving DecidableEq, Repr

/-- What a test vector scripts for one waiting step (20_memory.md R47, R49): each field that is given replaces that
field of the answer. -/
structure Override where
  w : Option Config.Wait
  status : Option Byte
  rx : Option Byte
deriving DecidableEq, Repr

/-- The oracle that answers bus steps (10_state.md section 6): the reference environment when one is attached, free
answers (R33, R90) when none is, and over either what is scripted for the next waiting steps. -/
structure Environment where
  ref : Option Env0
  script : List Override
deriving DecidableEq, Repr

/-- The state of the machine. -/
structure State where
  /-- the parameters of 00_scope.md R6: constants, changed by no step (R29, R203; log entry 3) -/
  params : Config.Params
  /-- `ADDR` (R10) -/
  addr : BusAddr
  /-- `WLEN` (R11) -/
  wlen : Byte
  /-- `RLEN` (R12) -/
  rlen : Byte
  /-- `WBUF[0..254]` (R13) -/
  wbuf : Vector Byte 255
  /-- `RBUF[0..254]` (R14) -/
  rbuf : Vector Byte 255
  /-- `RCOUNT` (R15) -/
  rcount : Byte
  /-- `RESULT` (R16) -/
  result : Result
  /-- `phase` (R17) -/
  phase : Phase
  /-- `idx` (R18) -/
  idx : Byte
  /-- `waitcnt` (R18) -/
  waitcnt : Nat
  /-- `busy` (R19) -/
  busy : Bool
  /-- the hang of 60_exceptions.md R183: the bus step in progress is never answered -/
  hung : Bool
  /-- `ident` (R21) -/
  ident : IdentCode
  /-- `pstate` (R22) -/
  pstate : PState
  /-- `pstep` (R23) -/
  pstep : PStep
  /-- `pclass` (R24) -/
  pclass : PClass
  /-- `settle` (R25) -/
  settle : Nat
  /-- `SAMPLE[0..5]` (R26) -/
  sample : Vector Byte 6
  /-- `sample_valid` (R19) -/
  sampleValid : Bool
  /-- `calib_reset` (R19) -/
  calibReset : Bool
  /-- the bus trace (30_encoding.md R75), oldest token first -/
  trace : List Token
  /-- the responses produced (30_encoding.md R60), oldest first -/
  responses : List (List Byte)
  /-- the MODEL's own: host bytes presented and not consumed (log entry 8) -/
  inbox : List Byte
  /-- the environment (R30 to R33; log entry 2) -/
  env : Environment
  /-- the MODEL's own: how many free values have been used (log entry 2) -/
  free : Nat
deriving DecidableEq, Repr

/-- No operation of the block stops the machine: errors are results (60_exceptions.md R170), reserved and incomplete
commands are defined (R67, U11), and the hang is a state that every step keeps (R183). So there is no fault. -/
inductive Fault where
deriving DecidableEq, Repr

/-- Why an instruction has no meaning. -/
inductive Refusal where
  /-- raised by an arm of `exec` for an instruction that is not modelled yet (safe); no arm raises it -/
  | notModelled (mnemonic : String)
deriving DecidableEq, Repr

/-- The state after reset: the values of 70_reset_and_hazards.md R201. The registers R201 calls unspecified
(`ADDR`, `WLEN`, `RLEN`, `WBUF`, `RBUF`, `SAMPLE`) are zero, DESIGN CHOICE (log entry 4). -/
def State.reset : State where
  params := Config.binding
  addr := 0
  wlen := 0
  rlen := 0
  wbuf := Vector.replicate 255 0
  rbuf := Vector.replicate 255 0
  rcount := 0
  result := .ok
  phase := .idle
  idx := 0
  waitcnt := 0
  busy := false
  hung := false
  ident := 0
  pstate := .uninitialized
  pstep := .idle
  pclass := .none
  settle := Config.binding.settleTicks
  sample := Vector.replicate 6 0
  sampleValid := false
  calibReset := false
  trace := []
  responses := []
  inbox := []
  env := { ref := none, script := [] }
  free := 0

end Sys2Proof.Machine
end

