-- ==== Sys2Proof/Machine/Operands.lean ====
section
/-! DEFINITION. Operand forms and arithmetic: address bytes (30_encoding.md R71), buffers (10_state.md R13, R14),
the identity (20_memory.md R46), step words (30_encoding.md R69), and the codes of the enumerated registers. -/

namespace Sys2Proof.Machine

/-- The byte of `SLAW`, `(ADDR << 1) | 0` (30_encoding.md R71). -/
def addrWrite (a : BusAddr) : Byte := a ++ 0#1

/-- The byte of `SLAR`, `(ADDR << 1) | 1` (30_encoding.md R71). -/
def addrRead (a : BusAddr) : Byte := a ++ 1#1

/-- `op` of a bus step (30_encoding.md R69). -/
def StepKind.op : StepKind → BitVec 3
  | .start => 0
  | .slaw => 1
  | .slar => 1
  | .txd => 2
  | .rxa => 3
  | .rxn => 4
  | .stop => 5
  | .rearm => 6

/-- The step word of a bus step (30_encoding.md R69). -/
def StepKind.word (k : StepKind) (data : Byte) : StepWord := stepWordOf k.op data

/-- Storing bytes from element 0 on; the elements beyond them keep their content (41_transaction.md R110: only
`WBUF[i]` with `i < WLEN` is written). -/
def loadBuffer {n : Nat} (old : Vector Byte n) (bytes : List Byte) : Vector Byte n :=
  ⟨⟨(bytes ++ old.toList.drop bytes.length).take n⟩, by simp; omega⟩

/-- `WBUF[i]` (10_state.md R13). -/
def State.wbufAt (s : State) (i : Byte) : Byte := s.wbuf.toList.getD i.toNat 0

/-- `RBUF[0] .. RBUF[RCOUNT-1]`: the bytes received so far (10_state.md R14, R15). -/
def State.received (s : State) : List Byte := s.rbuf.toList.take s.rcount.toNat

/-- The identity, "assembled big-endian" from the first two bytes received (20_memory.md R46). -/
def identOf (d : List Byte) : IdentCode := d.getD 0 0 ++ d.getD 1 0

/-- Codes of `RESULT` (30_encoding.md R68). -/
def Result.code : Result → BitVec 3
  | .ok => 0
  | .invalidArgument => 1
  | .addressNack => 2
  | .dataNack => 3
  | .arbitrationLost => 4
  | .timeout => 5

/-- Codes of `phase` (10_state.md R17). -/
def Phase.code : Phase → BitVec 4
  | .idle => 0
  | .wStart => 1
  | .wAddr => 2
  | .wData => 3
  | .rStart => 4
  | .rAddr => 5
  | .rData => 6
  | .stopping => 7
  | .rearming => 8

/-- Codes of `pstate` (10_state.md R22). -/
def PState.code : PState → BitVec 1
  | .uninitialized => 0
  | .active => 1

/-- Codes of `pstep` (10_state.md R23). -/
def PStep.code : PStep → BitVec 3
  | .idle => 0
  | .redirect => 1
  | .hs1 => 2
  | .hs2 => 3
  | .ident => 4
  | .poll => 5
  | .identRd => 6
  | .pollRd => 7

/-- Codes of `pclass` (10_state.md R24). -/
def PClass.code : PClass → BitVec 3
  | .none => 0
  | .nunchuk => 1
  | .classicController => 2
  | .motionPlus => 3
  | .unknown => 4

end Sys2Proof.Machine
end

