-- ==== Sys2Proof/Machine/Flags.lean ====
section
/-! DEFINITION. Status values: the status codes and their classification (30_encoding.md R70, 40_bus_steps.md R100),
the classification of a peripheral (43_identification.md R153), the responses (30_encoding.md R64, R66) and the
outputs to the decode engine (10_state.md R27, 43_identification.md R155). -/

namespace Sys2Proof.Machine

/-- What the ready wait makes of an answer (40_bus_steps.md R90), under `WAIT_LIMIT`. -/
def replyOf (limit : Config.WaitLimit) (a : Config.Answer) : Reply :=
  match limit, a.w with
  | .inf, .polls n => .ready n a.status a.rx
  | .inf, .never => .never
  | .polls l _, .polls n => if l ≤ n then .notReady else .ready n a.status a.rx
  | .polls _ _, .never => .notReady

/-- The status codes of 30_encoding.md R70. -/
def stStart : Byte := 0x08
def stRstart : Byte := 0x10
def stSlawAck : Byte := 0x18
def stSlawNack : Byte := 0x20
def stTxdAck : Byte := 0x28
def stTxdNack : Byte := 0x30
def stArbLost : Byte := 0x38
def stSlarAck : Byte := 0x40
def stSlarNack : Byte := 0x48
def stRxdAcked : Byte := 0x50
def stRxdNacked : Byte := 0x58

/-- The column `PASS` of 40_bus_steps.md R100. -/
def passes : StepKind → Byte → Bool
  | .start, st => st == stStart || st == stRstart
  | .slaw, st => st == stSlawAck
  | .slar, st => st == stSlarAck
  | .txd, st => st == stTxdAck
  | .rxa, st => st == stRxdAcked
  | .rxn, st => st == stRxdNacked
  | .stop, _ => true
  | .rearm, _ => true

/-- The columns `ADDRESS_NACK` and `DATA_NACK` of 40_bus_steps.md R100. -/
def nackOf : StepKind → Byte → Option Result
  | .slaw, st => if st = stSlawNack then some .addressNack else none
  | .slar, st => if st = stSlarNack then some .addressNack else none
  | .txd, st => if st = stTxdNack then some .dataNack else none
  | _, _ => none

/-- `classify(kind, status)` of 40_bus_steps.md R100 for a step that became ready: `none` is `PASS`. -/
def classifyStatus (k : StepKind) (st : Byte) : Option Result :=
  if passes k st then none
  else if st = stArbLost then some .arbitrationLost
  else some ((nackOf k st).getD .timeout)

/-- `classify(kind, outcome)` of 40_bus_steps.md R100: "`NOT_READY` is tested first". `STOP` and `REARM` have no
status and cannot fail (R98, R99). A step that is never answered has no outcome (R183) and is not classified. -/
def classify (k : StepKind) : Reply → Option Result
  | .noAnswer => none
  | .ready _ st _ => classifyStatus k st
  | .notReady => some .timeout
  | .never => none

/-- `Classify(ident)` (43_identification.md R153). -/
def classifyIdent (p : Config.Params) (id : IdentCode) : PClass :=
  if id = p.idNunchuk then .nunchuk
  else if id = p.idClassic then .classicController
  else if id = p.idMotionPlus then .motionPlus
  else .unknown

/-- `dtable` (10_state.md R27). -/
def dtable : PClass → Option DTable
  | .none => none
  | .nunchuk => some .motionSensor
  | .classicController => some .classic
  | .motionPlus => some .inertial
  | .unknown => some .motionSensor

/-- The `XACT` response (30_encoding.md R64). -/
def State.xactResponse (s : State) : List Byte :=
  s.result.code.setWidth 8 :: s.rcount :: s.received

/-- Byte 0 of the `TICK` response (30_encoding.md R66). -/
def State.tickByte0 (s : State) : Byte :=
  0#2 ++ BitVec.ofBool s.calibReset ++ BitVec.ofBool s.sampleValid ++ s.pclass.code ++ s.pstate.code

/-- The `TICK` response (30_encoding.md R66). -/
def State.tickResponse (s : State) : List Byte :=
  s.tickByte0 :: s.ident.extractLsb' 8 8 :: s.ident.extractLsb' 0 8 ::
    (if s.sampleValid then s.sample.toList else [])

/-- What the block presents to the decode engine at the end of a `TICK` (43_identification.md R155): `pstate`,
`pclass`, `dtable`, `ident`, `sample_valid`, `calib_reset`, and `SAMPLE` when it is valid. -/
def State.outputs (s : State) : PState × PClass × Option DTable × IdentCode × Bool × Bool × Option (Vector Byte 6) :=
  (s.pstate, s.pclass, dtable s.pclass, s.ident, s.sampleValid, s.calibReset,
    if s.sampleValid then some s.sample else none)

end Sys2Proof.Machine
end

