-- ==== Sys2Proof/Machine/Env0.lean ====
section
/-! DEFINITION. The reference environment `ENV0` (20_memory.md R47 to R49, 10_state.md R30 to R32) and the register
memory of its peripherals (20_memory.md R41, R45). -/

namespace Sys2Proof.Machine

/-- What a register that nothing has written reads as: DESIGN CHOICE (log entry 12). -/
def Memory.unlisted : Byte := 0

/-- Reading one register. -/
def Memory.read : Memory → Nat → Byte
  | [], _ => Memory.unlisted
  | (k, v) :: m, a => if k = a then v else Memory.read m a

/-- Writing one register, keeping the canonical form. -/
def Memory.write : Memory → Nat → Byte → Memory
  | [], a, v => if v = Memory.unlisted then [] else [(a, v)]
  | (k, x) :: m, a, v =>
    if a < k then (if v = Memory.unlisted then (k, x) :: m else (a, v) :: (k, x) :: m)
    else if a = k then (if v = Memory.unlisted then m else (a, v) :: m)
    else (k, x) :: Memory.write m a v

/-- The canonical form: register addresses strictly rising and within `0x00` to `0xFF` (20_memory.md R41), no entry
equal to what an unlisted register reads as. -/
abbrev Memory.wf (m : Memory) : Prop :=
  m.Pairwise (fun c d => c.1 < d.1) ∧ ∀ c ∈ m, c.1 < 256 ∧ c.2 ≠ Memory.unlisted

/-- "A peripheral with `paddr = a` is attached and not `settling`" (20_memory.md R48, R49). -/
def Peripheral.answersAt (p : Peripheral) (a : BusAddr) : Bool := p.paddr == a && !p.settling

/-- The register the pointer names. -/
def Peripheral.readAtPtr (p : Peripheral) : Byte := p.reg.read p.ptr.toNat

/-- `TXD` at one peripheral (20_memory.md R48): the pointer byte, then bytes stored at the advancing pointer; a
secondary-type peripheral notes the redirect. That one selected for reading stays as it is: DESIGN CHOICE (log entry
23). -/
def Peripheral.transmit (q : Config.Params) (d : Byte) (p : Peripheral) : Peripheral :=
  match p.sel with
  | .wrFirst => { p with ptr := d, sel := .wr }
  | .wr =>
    { p with
      reg := p.reg.write p.ptr.toNat d
      ptr := p.ptr + 1
      redirectPending := p.redirectPending ||
        (p.secondary && p.paddr == q.addrSecondary && p.ptr == q.redirectReg && d == q.redirectVal) }
  | .none => p
  | .rd => p

/-- `RXA` and `RXN` at one peripheral (20_memory.md R49): the pointer advances, and `RXN` ends the selection. That it
ends it at every peripheral, one selected for writing included: DESIGN CHOICE (log entry 24). -/
def Peripheral.receive (last : Bool) (p : Peripheral) : Peripheral :=
  match p.sel with
  | .rd => { p with ptr := p.ptr + 1, sel := if last then .none else .rd }
  | _ => if last then { p with sel := .none } else p

/-- What `ENV0` starts with: "`owned = 0`, every `sel = none` and every `ptr` unspecified" (70_reset_and_hazards.md
R201, 10_state.md R30). The pointers are free values, from number `n` on. -/
def Env0.powerUp (n : Nat) (e : Env0) : Env0 :=
  { owned := false
    peripherals := e.peripherals.mapIdx fun i p => { p with sel := .none, ptr := Config.unspecifiedByte (n + i) } }

/-- The `rx` of `ENV0`'s answer to `START`, `SLAW`, `SLAR` and `TXD`, which the spec leaves open (it is "meaningful only
for `RXA` and `RXN`", 00_scope.md R8): 0, DESIGN CHOICE (log entry 22). -/
def Env0.noRx : Byte := 0

/-- `START` (20_memory.md R47). Its `rx` is the model's choice (`Env0.noRx`). That `owned` becomes 1 follows from the
answer as delivered (`Env0.ownedAfter`), since a test vector may script the answer. -/
def Env0.start (e : Env0) : Env0 × Config.Answer :=
  ({ e with peripherals := e.peripherals.map fun p => { p with sel := .none } },
    { w := .polls 0, status := if e.owned then stRstart else stStart, rx := Env0.noRx })

/-- `SLAW` and `SLAR` with address byte `b` (20_memory.md R48, R49). The `rx` is the model's choice (`Env0.noRx`). -/
def Env0.address (e : Env0) (b : Byte) (sel : Selection) (ack nack : Byte) : Env0 × Config.Answer :=
  ({ e with peripherals :=
      e.peripherals.map fun p => if p.answersAt (b.extractLsb' 1 7) then { p with sel := sel } else p },
    { w := .polls 0
      status := if e.peripherals.any fun p => p.answersAt (b.extractLsb' 1 7) then ack else nack
      rx := Env0.noRx })

/-- `TXD` (20_memory.md R48). The `rx` is the model's choice (`Env0.noRx`), and so is the `ST_TXD_NACK` while the only
peripherals selected are selected for reading: DESIGN CHOICE (log entry 23). -/
def Env0.transmit (q : Config.Params) (e : Env0) (d : Byte) : Env0 × Config.Answer :=
  ({ e with peripherals := e.peripherals.map (Peripheral.transmit q d) },
    { w := .polls 0
      status := if e.peripherals.any fun p => p.sel == .wrFirst || p.sel == .wr then stTxdAck else stTxdNack
      rx := Env0.noRx })

/-- `RXA` and `RXN` (20_memory.md R49): an undriven line reads `0xFF`. -/
def Env0.receive (e : Env0) (last : Bool) : Env0 × Config.Answer :=
  ({ e with peripherals := e.peripherals.map (Peripheral.receive last) },
    { w := .polls 0
      status := if last then stRxdNacked else stRxdAcked
      rx := ((e.peripherals.find? fun p => p.sel == .rd).map Peripheral.readAtPtr).getD 0xFF })

/-- `STOP` (20_memory.md R47): a noted redirect takes effect. -/
def Env0.stop (q : Config.Params) (e : Env0) : Env0 :=
  { owned := false
    peripherals := e.peripherals.map fun p =>
      { p with
        sel := .none
        paddr := if p.redirectPending then q.addrPrimary else p.paddr
        redirectPending := false } }

/-- `REARM` (20_memory.md R47). -/
def Env0.rearm (e : Env0) : Env0 :=
  { owned := false, peripherals := e.peripherals.map fun p => { p with sel := .none } }

/-- `ENV0`'s answer to a waiting step. (`STOP` and `REARM` "return nothing": their row is not used.) -/
def Env0.answer (q : Config.Params) (e : Env0) (k : StepKind) (data : Byte) : Env0 × Config.Answer :=
  match k with
  | .start => e.start
  | .slaw => e.address data .wrFirst stSlawAck stSlawNack
  | .slar => e.address data .rd stSlarAck stSlarNack
  | .txd => e.transmit q data
  | .rxa => e.receive false
  | .rxn => e.receive true
  | .stop => (e.stop q, { w := .polls 0, status := 0, rx := 0 })
  | .rearm => (e.rearm, { w := .polls 0, status := 0, rx := 0 })

/-- Plugging a peripheral in: presence "changes without any action of the block" (10_state.md R32). -/
def Env0.plug (e : Env0) (p : Peripheral) : Env0 := { e with peripherals := p :: e.peripherals }

/-- Removing whatever answers at a bus address (10_state.md R32). -/
def Env0.unplug (e : Env0) (a : BusAddr) : Env0 :=
  { e with peripherals := e.peripherals.filter fun p => p.paddr != a }

/-- The end of settling, "cleared by the test vector's script, not by any bus step" (20_memory.md R48). -/
def Env0.settled (e : Env0) (a : BusAddr) : Env0 :=
  { e with peripherals := e.peripherals.map fun p => if p.paddr = a then { p with settling := false } else p }

/-- The fields a script gives replace those of the answer (20_memory.md section 4). -/
def Override.apply (o : Override) (a : Config.Answer) : Config.Answer :=
  { w := o.w.getD a.w, status := o.status.getD a.status, rx := o.rx.getD a.rx }

/-- The answer delivered to the block, given the answer of the reference environment or a free one: the script's next
entry, if any, is applied to it. -/
def Environment.scripted (e : Environment) (a : Config.Answer) : Config.Answer :=
  match e.script with
  | [] => a
  | o :: _ => o.apply a

/-- `owned` after a waiting step that was answered so (10_state.md R30): 1 from a `START` that succeeds, 0 from
arbitration loss, and otherwise as it was. A step whose wait is given up, or never ends, neither succeeds nor loses
arbitration (log entry 13). -/
def Env0.ownedAfter (k : StepKind) (owned : Bool) : Reply → Bool
  | .ready _ st _ =>
    match classifyStatus k st with
    | none => owned || k == .start
    | some c => owned && c != .arbitrationLost
  | .notReady => owned
  | .never => owned
  | .noAnswer => owned

/-- The environment's answer to a waiting step, and the environment after it: `ENV0`'s answer, or the free answer
number `n` when no reference environment is attached (10_state.md R33), with the script over it. -/
def Environment.draw (q : Config.Params) (e : Environment) (n : Nat) (k : StepKind) (data : Byte) :
    Environment × Config.Answer :=
  match e.ref with
  | none => ({ ref := none, script := e.script.tail }, e.scripted (Config.freeAnswer n))
  | some r =>
    let a := e.scripted (r.answer q k data).2
    ({ ref := some { (r.answer q k data).1 with owned := Env0.ownedAfter k r.owned (replyOf q.waitLimit a) }
       script := e.script.tail }, a)

/-- What a `STOP` or a `REARM` does in the environment (20_memory.md R47). -/
def Environment.release (q : Config.Params) (e : Environment) (k : StepKind) : Environment :=
  { e with ref := e.ref.map fun r => if k = .rearm then r.rearm else r.stop q }

end Sys2Proof.Machine
end

