-- ==== Sys2Proof/Machine/Ops.lean ====
section
/-! DEFINITION. The shared operations: one bus step with its ready wait (40_bus_steps.md R90), taking an exception
(60_exceptions.md R174) and the return from one (R175), starting a transaction (41_transaction.md R110), and the
state changes of the sequencer (43_identification.md). -/

namespace Sys2Proof.Machine

open Config

/-- `emit`: one token on the bus trace (00_scope.md R8, 40_bus_steps.md R102). -/
def State.emit (s : State) (word : StepWord) (reply : Reply) : State :=
  { s with trace := s.trace ++ [{ word := word, reply := reply }] }

/-- `waitcnt` after the ready wait (40_bus_steps.md R90): `w`, or `WAIT_LIMIT` when the wait gave up, and still 0 in
a wait that never ends (log entry 7). -/
def waitcntAfter (limit : WaitLimit) : Reply → Nat
  | .ready n _ _ => n
  | .notReady =>
    match limit with
    | .polls l _ => l
    | .inf => 0
  | .never => 0
  | .noAnswer => 0

/-- The draw of a waiting step: the environment's answer, one free value used up (R33, R90). -/
def State.drawn (s : State) (k : StepKind) (data : Byte) : State :=
  { s with env := (s.env.draw s.params s.free k data).1, free := s.free + 1 }

/-- The reply the block sees to a waiting step issued in `s` (40_bus_steps.md R90). -/
def State.replyTo (s : State) (k : StepKind) (data : Byte) : Reply :=
  replyOf s.params.waitLimit (s.env.draw s.params s.free k data).2

/-- `BusStep` of a waiting step (40_bus_steps.md R90): the step word is issued, the answer drawn, `waitcnt` counted;
if the ready flag never rises the block hangs (60_exceptions.md R183). -/
def State.busWait (s : State) (k : StepKind) (data : Byte) : State :=
  let r := s.replyTo k data
  { (s.drawn k data).emit (k.word data) r with
    waitcnt := waitcntAfter s.params.waitLimit r
    hung := s.hung || r == .never }

/-- `BusStep` of `STOP` or `REARM` (40_bus_steps.md R90, R98, R99): "no wait, no answer". -/
def State.busRelease (s : State) (k : StepKind) : State :=
  { s.emit (k.word 0) .noAnswer with env := s.env.release s.params k }

/-- The phase in which the recovery of a result code is issued (60_exceptions.md R174): `REARM` for
`ARBITRATION_LOST`, `STOP` otherwise. -/
def recoveryPhase (c : Result) : Phase := if c = .arbitrationLost then .rearming else .stopping

/-- Taking an exception, `raise c` (60_exceptions.md R174): `RESULT <- c` and control goes to the recovery phase,
whose bus step ends the transaction (41_transaction.md R120). `RCOUNT` and `RBUF` "keep what was stored so far". -/
def State.raise (s : State) (c : Result) : State := { s with result := c, phase := recoveryPhase c }

/-- The return (60_exceptions.md R175, 10_state.md R20): the response is produced and "`busy` falls to 0 and the next
command is accepted from `IDLE`". -/
def State.respond (s : State) (bytes : List Byte) : State :=
  { s with busy := false, responses := s.responses ++ [bytes] }

/-- A waiting bus step: `BusStep`, `classify`, and then either the effect of `PASS` with the received byte or `raise`
(the template of 40_bus_steps.md R92 to R97, R101). A block that hangs issues nothing (60_exceptions.md R183). -/
def State.waitingStep (s : State) (k : StepKind) (data : Byte) (onPass : Byte → State → State) : State :=
  if s.hung then s
  else
    match s.replyTo k data with
    | .ready _ st rx =>
      match classifyStatus k st with
      | none => onPass rx (s.busWait k data)
      | some c => (s.busWait k data).raise c
    | .notReady => (s.busWait k data).raise .timeout
    | .never => s.busWait k data
    | .noAnswer => s.busWait k data

/-- `STOP` or `REARM`: `BusStep`, then `phase <- IDLE` (40_bus_steps.md R98, R99). -/
def State.releaseStep (s : State) (k : StepKind) : State :=
  if s.hung then s else { s.busRelease k with phase := .idle }

/-- The registers a transaction start loads (41_transaction.md R110). -/
def State.loadTransaction (s : State) (a : BusAddr) (payload : List Byte) (rlen : Byte) : State :=
  { s with
    addr := a
    wlen := BitVec.ofNat 8 payload.length
    rlen := rlen
    wbuf := loadBuffer s.wbuf payload
    rcount := 0
    result := .ok
    idx := 0
    waitcnt := 0 }

/-- Starting a transaction (41_transaction.md R110): the registers, then the form by the zero-ness of the two
lengths. The empty form is `INVALID_ARGUMENT` "before any bus step" and leaves `phase` (R111). -/
def State.beginTransaction (s : State) (a : BusAddr) (payload : List Byte) (rlen : Byte) : State :=
  let t := s.loadTransaction a payload rlen
  if payload = [] then
    if rlen = 0 then { t with result := .invalidArgument } else { t with phase := .rStart }
  else { t with phase := .wStart }

/-- Acceptance of a host command (10_state.md R20). -/
def State.accept (s : State) : State := { s with busy := true }

/-- A host command is taken up only when the block is idle: "A command presented while `busy = 1` is not accepted and
has no effect" (10_state.md R20, U9). -/
def State.whenIdle (s t : State) : State := if s.hung || s.busy then s else t

/-- A reserved first byte (30_encoding.md R67). -/
def State.rejectReserved (s : State) : State :=
  { s with
    result := .invalidArgument
    rcount := 0
    responses := s.responses ++ [[1, 0]] }

/-- The content of `SAMPLE` is unspecified while `sample_valid = 0` (10_state.md R26, U2): six free values. -/
def State.invalidateSample (s : State) : State :=
  { s with
    sampleValid := false
    sample := Vector.ofFn fun i => unspecifiedByte (s.free + i.val)
    free := s.free + 6 }

/-- The start of every `TICK`: `sample_valid <- 0; calib_reset <- 0` (43_identification.md R141). -/
def State.beginTick (s : State) : State := { s.accept.invalidateSample with calibReset := false }

/-- The `Active -> Uninitialized` transition (43_identification.md R151, 60_exceptions.md R177): taking an exception
at the level of the sequencer. -/
def State.dropToUninitialized (s : State) : State :=
  { s.invalidateSample with
    pstate := .uninitialized
    pclass := .none
    ident := 0
    settle := s.params.settleTicks
    calibReset := true }

/-- Putting an attached reference environment at its start values (70_reset_and_hazards.md R201): one free value for
each peripheral's pointer. -/
def State.startEnv0 (s : State) : State :=
  { s with
    env := { s.env with ref := s.env.ref.map (Env0.powerUp s.free) }
    free := s.free + ((s.env.ref.map fun e => e.peripherals.length).getD 0) }

/-- Attaching the reference environment with these peripherals, at its start values (10_state.md R30, R31): an input
from outside, which nothing in the machine calls (log entry 14). -/
def State.attach (s : State) (l : List Peripheral) : State :=
  State.startEnv0 { s with env := { s.env with ref := some { owned := false, peripherals := l } } }

/-- Every register of the block takes its reset value (70_reset_and_hazards.md R200, R201); the environment, the
parameters, the free-value counter and the record of what happened before are not the block's registers and stay. -/
def State.blockReset (s : State) : State :=
  { State.reset with
    params := s.params
    settle := s.params.settleTicks
    trace := s.trace
    responses := s.responses
    inbox := s.inbox
    env := s.env
    free := s.free }

/-- The reset event (70_reset_and_hazards.md R200, R201): the block's registers, and the start values of an attached
`ENV0`. It is an input from outside, not an instruction (log entry 15). -/
def State.powerCycle (s : State) : State := s.blockReset.startEnv0

end Sys2Proof.Machine
end

