-- ==== Sys2Proof/Machine/BusSteps.lean ====
section
/-! DEFINITION. The nine bus steps (40_bus_steps.md). Each `bus<Step>` is the step as the engine issues it, each
`exec<Step>` the meaning of the instruction. -/

namespace Sys2Proof.Machine

/-- `START` (R92): on `PASS` "continue with the next phase", which is `W_ADDR` from `W_START` (R115) and `R_ADDR` from
`R_START` (R116); the engine issues it in no other phase. -/
def busStart (s : State) : State :=
  s.waitingStep .start 0 fun _ t =>
    match t.phase with
    | .wStart => { t with phase := .wAddr }
    | .rStart => { t with phase := .rAddr }
    | _ => t

/-- `RSTART` (R93). -/
def busRstart (s : State) : State := s.waitingStep .start 0 fun _ t => { t with phase := .rAddr }

/-- `SLAW` (R94). -/
def busSlaw (a : BusAddr) (s : State) : State :=
  s.waitingStep .slaw (addrWrite a) fun _ t => { t with idx := 0, phase := .wData }

/-- `SLAR` (R95). -/
def busSlar (a : BusAddr) (s : State) : State :=
  s.waitingStep .slar (addrRead a) fun _ t => { t with idx := 0, phase := .rData }

/-- Where the write phase goes after a byte (R96). -/
def afterTxd (t : State) : Phase :=
  if t.idx.toNat < t.wlen.toNat then .wData else if t.rlen ≠ 0 then .rStart else .stopping

/-- `TXD` (R96). -/
def busTxd (d : Byte) (s : State) : State :=
  s.waitingStep .txd d fun _ t =>
    { t with idx := t.idx + 1, phase := afterTxd { t with idx := t.idx + 1 } }

/-- The effect of a passing read step on the registers (R97, R101). -/
def State.storeReceived (t : State) (rx : Byte) : State :=
  { t with
    rbuf := t.rbuf.setIfInBounds t.idx.toNat rx
    rcount := t.rcount + 1
    idx := t.idx + 1 }

/-- `RXA` (R97). -/
def busRxa (s : State) : State :=
  s.waitingStep .rxa 0 fun rx t => { t.storeReceived rx with phase := .rData }

/-- `RXN` (R101). -/
def busRxn (s : State) : State :=
  s.waitingStep .rxn 0 fun rx t => { t.storeReceived rx with phase := .stopping }

/-- `STOP` (R98). -/
def busStop (s : State) : State := s.releaseStep .stop

/-- `REARM` (R99). -/
def busRearm (s : State) : State := s.releaseStep .rearm

def execStart (s : State) : Host.Outcome State Fault Refusal := .next (busStart s)
def execRstart (s : State) : Host.Outcome State Fault Refusal := .next (busRstart s)
def execSlaw (a : BusAddr) (s : State) : Host.Outcome State Fault Refusal := .next (busSlaw a s)
def execSlar (a : BusAddr) (s : State) : Host.Outcome State Fault Refusal := .next (busSlar a s)
def execTxd (d : Byte) (s : State) : Host.Outcome State Fault Refusal := .next (busTxd d s)
def execRxa (s : State) : Host.Outcome State Fault Refusal := .next (busRxa s)
def execRxn (s : State) : Host.Outcome State Fault Refusal := .next (busRxn s)
def execStop (s : State) : Host.Outcome State Fault Refusal := .next (busStop s)
def execRearm (s : State) : Host.Outcome State Fault Refusal := .next (busRearm s)

end Sys2Proof.Machine
end

