-- ==== Sys2Proof/Machine/Transactions.lean ====
section
/-! DEFINITION. The transaction engine and the four `XACT` commands (41_transaction.md). -/

namespace Sys2Proof.Machine

/-- The bus step the engine issues next, by `phase` (10_state.md R17, 41_transaction.md R115, R116); none in `IDLE`. -/
def State.issued (s : State) : Option Instr :=
  match s.phase with
  | .idle => none
  | .wStart => some .start
  | .wAddr => some (.slaw s.addr)
  | .wData => some (.txd (s.wbufAt s.idx))
  | .rStart => some (if s.wlen = 0 then .start else .rstart)
  | .rAddr => some (.slar s.addr)
  | .rData => some (if s.idx.toNat + 1 < s.rlen.toNat then .rxa else .rxn)
  | .stopping => some .stop
  | .rearming => some .rearm

/-- The engine performs the bus step of its phase. -/
def issue (s : State) : State :=
  match s.phase with
  | .idle => s
  | .wStart => busStart s
  | .wAddr => busSlaw s.addr s
  | .wData => busTxd (s.wbufAt s.idx) s
  | .rStart => if s.wlen = 0 then busStart s else busRstart s
  | .rAddr => busSlar s.addr s
  | .rData => if s.idx.toNat + 1 < s.rlen.toNat then busRxa s else busRxn s
  | .stopping => busStop s
  | .rearming => busRearm s

/-- Bus steps one after another (20_memory.md R51) until the transaction has ended (`phase = IDLE`) or the block
hangs, at most `n` of them. -/
def engine : Nat → State → State
  | 0, s => s
  | n + 1, s => if s.hung || s.phase == .idle then s else engine n (issue s)

/-- A transaction "issues at most `wlen + rlen + 5` bus steps" (41_transaction.md R119). -/
def State.stepBound (s : State) : Nat := s.wlen.toNat + s.rlen.toNat + 5

/-- One transaction from its start to its end (41_transaction.md R110 to R117), as the host or the sequencer starts it
(R121). The empty form issues no bus step (R111). -/
def transact (a : BusAddr) (payload : List Byte) (rlen : Byte) (s : State) : State :=
  if s.hung then s
  else if payload = [] ∧ rlen = 0 then s.beginTransaction a payload rlen
  else engine (s.beginTransaction a payload rlen).stepBound (s.beginTransaction a payload rlen)

/-- The end of a direct transaction: the `XACT` response (30_encoding.md R64), unless the block hangs (R183). -/
def respondXact (s : State) : State := if s.hung then s else s.respond s.xactResponse

/-- A direct transaction: acceptance, transaction, response (10_state.md R20, 41_transaction.md R112 to R114). -/
def directTransaction (a : BusAddr) (payload : List Byte) (rlen : Byte) (s : State) : State :=
  s.whenIdle (respondXact (transact a payload rlen s.accept))

/-- `XACT.INV` (R111): both lengths are zero. -/
def execXactInv (a : BusAddr) (s : State) : Host.Outcome State Fault Refusal :=
  .next (directTransaction a [] 0 s)

/-- `XACT.W` (R112). -/
def execXactW (a : BusAddr) (payload : List Byte) (s : State) : Host.Outcome State Fault Refusal :=
  .next (directTransaction a payload 0 s)

/-- `XACT.R` (R113). -/
def execXactR (a : BusAddr) (rlen : Byte) (s : State) : Host.Outcome State Fault Refusal :=
  .next (directTransaction a [] rlen s)

/-- `XACT.WR` (R114). -/
def execXactWr (a : BusAddr) (payload : List Byte) (rlen : Byte) (s : State) : Host.Outcome State Fault Refusal :=
  .next (directTransaction a payload rlen s)

end Sys2Proof.Machine
end

