-- ==== Sys2Proof/Machine/RegisterProtocol.lean ====
section
/-! DEFINITION. `REGWR` and `REGRD` (42_register_protocol.md). -/

namespace Sys2Proof.Machine

/-- `REGWR` (R131): "`Transact(a, [r] ++ v, 0)`". The result is left in `RESULT`. -/
def regwr (a : BusAddr) (r : Byte) (vs : List Byte) (s : State) : State := transact a (r :: vs) 0 s

/-- `pstep` "during the second transaction in split mode" (43_identification.md R143, R150; 10_state.md R23). -/
def PStep.readHalf : PStep → PStep
  | .ident => .identRd
  | .poll => .pollRd
  | p => p

/-- What is left of a register read when its first transaction has ended (R132): nothing in `combined` mode, the
read transaction in `split` mode if the pointer write was `OK`. -/
def readHalf (a : BusAddr) (n : Byte) (s : State) : State :=
  match s.params.regReadMode with
  | .combined => s
  | .split =>
    if s.hung || s.result != .ok then s
    else transact a [] n { s with pstep := s.pstep.readHalf }

/-- The first transaction of a register read (R132): the whole read in `combined` mode, the pointer write in `split`
mode. -/
def pointerHalf (a : BusAddr) (r n : Byte) (s : State) : State :=
  match s.params.regReadMode with
  | .combined => transact a [r] n s
  | .split => transact a [r] 0 s

/-- `REGRD` (R132). The result is left in `RESULT`, the bytes in `RBUF[0..RCOUNT-1]`. -/
def regrd (a : BusAddr) (r n : Byte) (s : State) : State := readHalf a n (pointerHalf a r n s)

def execRegwr (a : BusAddr) (r : Byte) (vs : List Byte) (s : State) : Host.Outcome State Fault Refusal :=
  .next (regwr a r vs s)

def execRegrd (a : BusAddr) (r n : Byte) (s : State) : Host.Outcome State Fault Refusal := .next (regrd a r n s)

end Sys2Proof.Machine
end

