-- ==== Sys2Proof/Machine/Identification.lean ====
section
/-! DEFINITION. The identification and register-read sequencer: `INIT`, `POLL`, `TICK` (43_identification.md). -/

namespace Sys2Proof.Machine

/-- `INIT` ends without success: "`pstep <- P_IDLE`; return false" (R143, R147). -/
def initFails (s : State) : Bool × State := (false, { s with pstep := .idle })

/-- `INIT` after the identity read (R143, R146). In this file a pair is what `INIT` returns and the state; a block
that hangs goes no further (60_exceptions.md R183). -/
def afterIdent (s : State) : Bool × State :=
  if s.hung then (false, s)
  else if s.result ≠ .ok then initFails s
  else (true,
    { s with
      ident := identOf s.received
      pclass := classifyIdent s.params (identOf s.received)
      pstep := .idle })

/-- `INIT` after the second handshake write (R143, R145). -/
def afterHs2 (s : State) : Bool × State :=
  if s.hung then (false, s)
  else if s.result ≠ .ok then initFails s
  else afterIdent (regrd s.params.addrPrimary regIdent identLen { s with pstep := .ident })

/-- `INIT` after the first handshake write (R143, R145). -/
def afterHs1 (s : State) : Bool × State :=
  if s.hung then (false, s)
  else if s.result ≠ .ok then initFails s
  else afterHs2 (regwr s.params.addrPrimary regInit2 [valInit2] { s with pstep := .hs2 })

/-- `INIT` after the redirect write (R143, R144): `ADDRESS_NACK` "is the ordinary case". -/
def afterRedirect (s : State) : Bool × State :=
  if s.hung then (false, s)
  else if s.result ≠ .ok ∧ s.result ≠ .addressNack then initFails s
  else afterHs1 (regwr s.params.addrPrimary regInit1 [valInit1] { s with pstep := .hs1 })

/-- `INIT` (R143). -/
def init (s : State) : Bool × State :=
  afterRedirect
    (regwr s.params.addrSecondary s.params.redirectReg [s.params.redirectVal] { s with pstep := .redirect })

/-- `POLL` after its register read (R150, R151). -/
def pollEnd (s : State) : State :=
  if s.hung then s
  else if s.result = .ok then
    { s with pstep := .idle, sample := loadBuffer s.sample s.received, sampleValid := true }
  else State.dropToUninitialized { s with pstep := .idle }

/-- `POLL` (R150). -/
def poll (s : State) : State :=
  pollEnd (regrd s.params.addrPrimary regReport sampleLen { s with pstep := .poll })

/-- The end of a `TICK`: its response (30_encoding.md R66). -/
def respondTick (s : State) : State := if s.hung then s else s.respond s.tickResponse

/-- A `TICK` whose `INIT` returned false (R141, R147). -/
def failTick (s : State) : State := respondTick { s with settle := s.params.settleTicks }

/-- `INIT` returned true (R148). -/
def activate (s : State) : State := { s with pstate := .active, calibReset := true }

/-- What `TICK` does with the return of `INIT` (R141, R147, R148, R149). -/
def finishInit (r : Bool × State) : State :=
  if r.2.hung then r.2
  else if r.1 then
    if r.2.params.fallthrough then respondTick (poll (activate r.2)) else respondTick (activate r.2)
  else failTick r.2

/-- `TICK` (R141, R142), from `sample_valid <- 0` on. -/
def tickBody (s : State) : State :=
  match s.pstate with
  | .uninitialized => if 0 < s.settle then respondTick { s with settle := s.settle - 1 } else finishInit (init s)
  | .active => respondTick (poll s)

/-! ## The sequencer one transaction at a time (10_state.md R23, 41_transaction.md R121) -/

/-- The first transaction of a register read begins (R132). -/
def State.beginRead (s : State) (a : BusAddr) (r n : Byte) : State :=
  match s.params.regReadMode with
  | .combined => s.beginTransaction a [r] n
  | .split => s.beginTransaction a [r] 0

/-- The first transaction of `POLL` begins (R150). -/
def beginPoll (s : State) : State := State.beginRead { s with pstep := .poll } s.params.addrPrimary regReport sampleLen

/-- The redirect write, the first transaction of `INIT`, begins (R143, R144). -/
def beginInit (s : State) : State :=
  State.beginTransaction { s with pstep := .redirect } s.params.addrSecondary
    [s.params.redirectReg, s.params.redirectVal] 0

/-- What `TICK` does with the return of `INIT`, up to the first transaction of `POLL` (R147 to R149). -/
def resumeInit (r : Bool × State) : State :=
  if r.1 then if r.2.params.fallthrough then beginPoll (activate r.2) else respondTick (activate r.2)
  else failTick r.2

/-- The second transaction of a register read is still to come: `split` mode, and the pointer write was `OK`
(42_register_protocol.md R132). -/
def State.halfRead (s : State) : Bool := s.params.regReadMode == .split && s.result == .ok

/-- What follows when the current transaction of a command has ended (41_transaction.md R121): a direct transaction
responds, and the sequencer judges the result at `pstep` and begins its next transaction or ends the `TICK` (R143 to
R151). -/
def resume (s : State) : State :=
  match s.pstep with
  | .idle => respondXact s
  | .redirect =>
    if s.result ≠ .ok ∧ s.result ≠ .addressNack then resumeInit (initFails s)
    else State.beginTransaction { s with pstep := .hs1 } s.params.addrPrimary [regInit1, valInit1] 0
  | .hs1 =>
    if s.result ≠ .ok then resumeInit (initFails s)
    else State.beginTransaction { s with pstep := .hs2 } s.params.addrPrimary [regInit2, valInit2] 0
  | .hs2 =>
    if s.result ≠ .ok then resumeInit (initFails s)
    else State.beginRead { s with pstep := .ident } s.params.addrPrimary regIdent identLen
  | .ident =>
    if s.halfRead then State.beginTransaction { s with pstep := .identRd } s.params.addrPrimary [] identLen
    else resumeInit (afterIdent s)
  | .identRd => resumeInit (afterIdent s)
  | .poll =>
    if s.halfRead then State.beginTransaction { s with pstep := .pollRd } s.params.addrPrimary [] sampleLen
    else respondTick (pollEnd s)
  | .pollRd => respondTick (pollEnd s)

/-- `TICK` (R141). -/
def execTick (s : State) : Host.Outcome State Fault Refusal := .next (s.whenIdle (tickBody s.beginTick))

/-- `INIT` (R143). What `TICK` does with its return value is in `finishInit`. -/
def execInit (s : State) : Host.Outcome State Fault Refusal := .next (if s.hung then s else (init s).2)

/-- `POLL` (R150). -/
def execPoll (s : State) : Host.Outcome State Fault Refusal := .next (if s.hung then s else poll s)

end Sys2Proof.Machine
end

