-- ==== Sys2Proof/Machine/Dispatch.lean ====
section
/-! DEFINITION. The dispatch of every instruction to its meaning. -/

namespace Sys2Proof.Machine

def exec (i : Instr) (s : State) : Host.Outcome State Fault Refusal :=
  match i with
  | .xactInv a => Sys2Proof.Machine.execXactInv a s
  | .xactW a p => Sys2Proof.Machine.execXactW a p s
  | .xactR a n => Sys2Proof.Machine.execXactR a n s
  | .xactWr a p n => Sys2Proof.Machine.execXactWr a p n s
  | .tick => Sys2Proof.Machine.execTick s
  | .regwr a r vs => Sys2Proof.Machine.execRegwr a r vs s
  | .regrd a r n => Sys2Proof.Machine.execRegrd a r n s
  | .init => Sys2Proof.Machine.execInit s
  | .poll => Sys2Proof.Machine.execPoll s
  | .start => Sys2Proof.Machine.execStart s
  | .rstart => Sys2Proof.Machine.execRstart s
  | .slaw a => Sys2Proof.Machine.execSlaw a s
  | .slar a => Sys2Proof.Machine.execSlar a s
  | .txd d => Sys2Proof.Machine.execTxd d s
  | .rxa => Sys2Proof.Machine.execRxa s
  | .rxn => Sys2Proof.Machine.execRxn s
  | .stop => Sys2Proof.Machine.execStop s
  | .rearm => Sys2Proof.Machine.execRearm s

end Sys2Proof.Machine
end

