-- ==== Sys2Proof/Machine/Fetch.lean ====
section
/-! DEFINITION. What the machine does next (10_state.md R17, R20; 30_encoding.md R60), and the placing of one
instruction where that comes from. -/

namespace Sys2Proof.Machine

/-- What a step does. -/
inductive Fetched where
  /-- the block hangs (60_exceptions.md R183) -/
  | hang
  /-- no complete command is presented (30_encoding.md R62, U11) -/
  | wait
  /-- an instruction, and the state in which it runs -/
  | run (i : Instr) (s : State)
  /-- a reserved command byte, consumed (30_encoding.md R67) -/
  | reserved (s : State)
  /-- the transaction in progress has ended: its command responds or begins its next transaction (41_transaction.md
  R121) -/
  | resume (s : State)
deriving DecidableEq, Repr

/-- A busy block issues the bus step of its phase, or goes on with the command when the transaction has ended; an idle
block takes a command from the presented bytes. -/
def State.fetch (s : State) : Fetched :=
  if s.hung then .hang
  else if s.busy then
    match s.issued with
    | some i => .run i s
    | none => .resume s
  else
    match decodeHost s.inbox with
    | .command i rest => .run i { s with inbox := rest }
    | .reserved _ rest => .reserved { s with inbox := rest }
    | .incomplete => .wait

/-- The bytes of the one host command that the word `w` of `nbits` bits begins (the bits above are zero). -/
def hostBytesOf (nbits w : Nat) : List Byte :=
  match decodeHost (tableHostBytes nbits w) with
  | .command _ rest => (tableHostBytes nbits w).take ((tableHostBytes nbits w).length - rest.length)
  | .reserved b _ => [b]
  | .incomplete => wordBytes ((nbits + 7) / 8) w

/-- An idle block with these bytes presented first. -/
def State.presenting (s : State) (bytes : List Byte) : State :=
  { s with busy := false, hung := false, phase := .idle, pstep := .idle, inbox := bytes ++ s.inbox }

/-- A block in a direct transaction (41_transaction.md R110), in the given phase. -/
def State.inPhase (s : State) (p : Phase) : State :=
  { s with busy := true, hung := false, pstep := .idle, phase := p }

/-- A block whose next bus step is the given one: the phase and the registers that 10_state.md R17 makes it follow
from. -/
def State.issuing (s : State) : Instr → State
  | .start => s.inPhase .wStart
  | .rstart => { s.inPhase .rStart with wlen := 1 }
  | .slaw a => { s.inPhase .wAddr with addr := a }
  | .slar a => { s.inPhase .rAddr with addr := a }
  | .txd d => { s.inPhase .wData with idx := 0, wlen := 1, wbuf := loadBuffer s.wbuf [d] }
  | .rxa => { s.inPhase .rData with idx := 0, rlen := 2, rcount := 0 }
  | .rxn => { s.inPhase .rData with idx := 0, rlen := 1, rcount := 0 }
  | .stop => s.inPhase .stopping
  | .rearm => s.inPhase .rearming
  | _ => s

end Sys2Proof.Machine
end

