-- ==== Sys2Proof/Machine/Step.lean ====
section
/-! DEFINITION. One step of the machine. -/

namespace Sys2Proof.Machine

/-- One step: a whole host command when the block is idle (10_state.md R20: "runs the command to its end without
interruption"), one bus step when a transaction is in progress, and one move of the sequencer between two transactions
(log entries 1 and 20). -/
def step (s : State) : Host.Outcome State Fault Refusal :=
  match s.fetch with
  | .hang => .next s
  | .wait => .next s
  | .run i t => exec i t
  | .reserved t => .next t.rejectReserved
  | .resume t => .next (resume t)

/-- `s` with the instruction of the word `w` placed so that the next step runs it: a host command among the presented
bytes of an idle block, a step word as the phase and registers from which the engine issues it (log entry 8). -/
def State.withFetchWord (s : State) (nbits w : Nat) : State :=
  if nbits = 11 ∨ nbits = 16 then
    match decodeTableWord nbits w with
    | some i => s.issuing i
    | none => s
  else s.presenting (hostBytesOf nbits w)

end Sys2Proof.Machine
end

