-- ==== Sys2Proof/Safety.lean ====
section
/-! DEFINITION. The terms the statements use: the invariant of the machine, what two states may differ in without any
output differing, the transaction as one function (41_transaction.md R119), the phase relation (R120), and what it
says that the environment lets a sequence of bus steps pass. -/

namespace Sys2Proof.Machine

open Config

/-- A block that can accept a host command (10_state.md R20). -/
abbrev State.Idle (s : State) : Prop := s.busy = false ∧ s.hung = false

/-- A phase in which the engine issues a waiting step: the six phases of 60_exceptions.md R174. -/
def Phase.waits : Phase → Bool
  | .wStart => true
  | .wAddr => true
  | .wData => true
  | .rStart => true
  | .rAddr => true
  | .rData => true
  | .idle => false
  | .stopping => false
  | .rearming => false

/-- The phases of the write phase (41_transaction.md R115). -/
def Phase.writing : Phase → Bool
  | .wStart => true
  | .wAddr => true
  | .wData => true
  | _ => false

/-- The phases of the read phase (41_transaction.md R116). -/
def Phase.reading : Phase → Bool
  | .rStart => true
  | .rAddr => true
  | .rData => true
  | _ => false

/-- The positions of the sequencer inside `INIT` (10_state.md R23). -/
def PStep.inInit : PStep → Bool
  | .redirect => true
  | .hs1 => true
  | .hs2 => true
  | .ident => true
  | .identRd => true
  | _ => false

/-- The positions of the sequencer inside `POLL` (10_state.md R23). -/
def PStep.inPoll : PStep → Bool
  | .poll => true
  | .pollRd => true
  | _ => false

/-- The peripherals of the reference environment, when one is attached. -/
def State.peripherals (s : State) : List Peripheral := (s.env.ref.map (·.peripherals)).getD []

/-- The invariant: what holds of the machine before and after every step. -/
structure Inv (s : State) : Prop where
  /-- the registers of every peripheral are in canonical form -/
  regsWf : ∀ p ∈ s.peripherals, p.reg.wf
  /-- R20, R23: "then `phase = IDLE` and `pstep = P_IDLE`" -/
  idleWhenFree : s.busy = false → s.phase = .idle ∧ s.pstep = .idle ∧ s.hung = false
  /-- R183: a block that hangs is busy in a waiting step, and `WAIT_LIMIT = INF` -/
  hungWaits : s.hung = true → s.busy = true ∧ s.phase.waits = true ∧ s.params.waitLimit = .inf
  /-- R15 -/
  received : s.rcount.toNat ≤ s.rlen.toNat
  /-- R115: a write phase has a payload, and nothing has failed or been read -/
  writing : s.phase.writing = true → s.wlen ≠ 0 ∧ s.rcount = 0 ∧ s.result = .ok
  /-- R18 -/
  writeIndex : s.phase = .wData → s.idx.toNat < s.wlen.toNat
  /-- R116: a read phase has a length, and nothing has failed -/
  reading : s.phase.reading = true → s.rlen ≠ 0 ∧ s.result = .ok
  /-- R116 -/
  readBefore : s.phase = .rStart ∨ s.phase = .rAddr → s.rcount = 0
  /-- R18, R116 -/
  readIndex : s.phase = .rData → s.idx = s.rcount ∧ s.idx.toNat < s.rlen.toNat
  /-- R117, R174: `STOP` follows a completed transaction or a failure that is not arbitration loss -/
  stopping : s.phase = .stopping →
    s.result ≠ .arbitrationLost ∧ s.result ≠ .invalidArgument ∧ (s.result = .ok → s.rcount = s.rlen)
  /-- R174 -/
  rearming : s.phase = .rearming → s.result = .arbitrationLost
  /-- R15: a transaction that ended `OK` has received all its bytes -/
  ended : s.busy = true → s.phase = .idle → s.result = .ok → s.rcount = s.rlen
  /-- R24 -/
  classNone : s.pclass = .none ↔ s.pstate = .uninitialized
  /-- R146, C11 -/
  classOf : s.pstate = .active → s.pclass = classifyIdent s.params s.ident
  /-- R21 -/
  identCleared : s.pstate = .uninitialized → s.ident = 0
  /-- R154 -/
  activeSettled : s.pstate = .active → s.settle = 0
  /-- R25 -/
  settleBound : s.settle ≤ s.params.settleTicks
  /-- R154 -/
  sampleActive : s.sampleValid = true → s.pstate = .active
  /-- R141, R143 -/
  initStep : s.pstep.inInit = true → s.pstate = .uninitialized ∧ s.settle = 0
  /-- R141, R150 -/
  pollStep : s.pstep.inPoll = true → s.pstate = .active
  /-- R141: no sample is valid inside a `TICK` that has not read one -/
  tickFlags : s.pstep ≠ .idle → s.sampleValid = false
  /-- R23: codes 6 and 7 are "`split` mode only" -/
  splitOnly : s.pstep = .identRd ∨ s.pstep = .pollRd → s.params.regReadMode = .split
  /-- R143: the identity read reads `IDENT_LEN` bytes -/
  identLength : s.pstep = .identRd ∨ s.pstep = .ident ∧ s.params.regReadMode = .combined → s.rlen = identLen
  /-- R150: the report read reads `SAMPLE_LEN` bytes -/
  pollLength : s.pstep = .pollRd ∨ s.pstep = .poll ∧ s.params.regReadMode = .combined → s.rlen = sampleLen

/-- Two states that differ at most in what the spec calls unspecified (93_implementation_defined.md U1, U2): `RBUF`
beyond `RCOUNT`, `SAMPLE` while it is not valid, `WBUF` beyond `WLEN`, and between transactions the operand registers
and `idx`, which every transaction start loads (R201, R110). `waitcnt` is read by nothing. -/
structure Agree (s t : State) : Prop where
  params : s.params = t.params
  rcount : s.rcount = t.rcount
  received : s.received = t.received
  result : s.result = t.result
  phase : s.phase = t.phase
  busy : s.busy = t.busy
  hung : s.hung = t.hung
  ident : s.ident = t.ident
  pstate : s.pstate = t.pstate
  pstep : s.pstep = t.pstep
  pclass : s.pclass = t.pclass
  settle : s.settle = t.settle
  sampleValid : s.sampleValid = t.sampleValid
  sample : s.sampleValid = true → s.sample = t.sample
  calibReset : s.calibReset = t.calibReset
  trace : s.trace = t.trace
  responses : s.responses = t.responses
  inbox : s.inbox = t.inbox
  env : s.env = t.env
  free : s.free = t.free
  operands : s.busy = true → s.addr = t.addr ∧ s.wlen = t.wlen ∧ s.rlen = t.rlen ∧ s.idx = t.idx ∧
    s.wbuf.toList.take s.wlen.toNat = t.wbuf.toList.take s.wlen.toNat

/-! ## The transaction as one function (41_transaction.md R119) -/

/-- `step(kind, data)` of R119: `BusStep` and `classify`. The first component is `none` when the step hangs, else
`(c, rx)` with `c = none` for `PASS`. -/
def specStep (k : StepKind) (data : Byte) (s : State) : Option (Option Result × Byte) × State :=
  match s.replyTo k data with
  | .ready w st rx => (some (classify k (.ready w st rx), rx), s.busWait k data)
  | .notReady => (some (classify k .notReady, 0), s.busWait k data)
  | .noAnswer => (some (classify k .noAnswer, 0), s.busWait k data)
  | .never => (none, s.busWait k data)

/-- `fail(c)` of R119. -/
def specFail (c : Result) (rdata : List Byte) (s : State) : Option (Result × List Byte) × State :=
  (some (c, rdata), s.busRelease (if c = .arbitrationLost then .rearm else .stop))

/-- `BusStep(STOP, 0)`; return `(OK, rdata)`. -/
def specDone (rdata : List Byte) (s : State) : Option (Result × List Byte) × State :=
  (some (.ok, rdata), s.busRelease .stop)

/-- One step and its two continuations: hang or failure ends the function, `PASS` goes on with the received byte. -/
def specThen (k : StepKind) (data : Byte) (rdata : List Byte)
    (next : Byte → State → Option (Result × List Byte) × State) (s : State) : Option (Result × List Byte) × State :=
  match specStep k data s with
  | (none, t) => (none, t)
  | (some (none, rx), t) => next rx t
  | (some (some c, _), t) => specFail c rdata t

/-- The read loop of R119, `n` bytes still to come. -/
def specRead : Nat → List Byte → State → Option (Result × List Byte) × State
  | 0, rdata, s => specDone rdata s
  | n + 1, rdata, s =>
    specThen (if n = 0 then .rxn else .rxa) 0 rdata (fun rx t => specRead n (rdata ++ [rx]) t) s

/-- The read phase of R119. -/
def specReadPhase (a : BusAddr) (rlen : Nat) (s : State) : Option (Result × List Byte) × State :=
  if rlen = 0 then specDone [] s
  else specThen .start 0 [] (fun _ t => specThen .slar (addrRead a) [] (fun _ u => specRead rlen [] u) t) s

/-- The write loop of R119, followed by the read phase. -/
def specWrite (a : BusAddr) (rlen : Nat) : List Byte → State → Option (Result × List Byte) × State
  | [], s => specReadPhase a rlen s
  | d :: ds, s => specThen .txd d [] (fun _ t => specWrite a rlen ds t) s

/-- `Transact(addr, wdata, rlen)` of R119: result and data (`none`: the transaction hangs), and the state of bus and
environment after it. -/
def specTransact (a : BusAddr) (wdata : List Byte) (rlen : Nat) (s : State) : Option (Result × List Byte) × State :=
  if wdata = [] ∧ rlen = 0 then (some (.invalidArgument, []), s)
  else if wdata = [] then specReadPhase a rlen s
  else specThen .start 0 []
    (fun _ t => specThen .slaw (addrWrite a) [] (fun _ u => specWrite a rlen wdata u) t) s

/-- The operands of an `XACT` command: address, payload, read length. -/
def xactOperands : Instr → Option (BusAddr × List Byte × Byte)
  | .xactInv a => some (a, [], 0)
  | .xactW a p => some (a, p, 0)
  | .xactR a n => some (a, [], n)
  | .xactWr a p n => some (a, p, n)
  | _ => none

/-- The command a host command starts, before its first bus step: an accepted transaction (10_state.md R20,
41_transaction.md R110). -/
def accepted (a : BusAddr) (payload : List Byte) (rlen : Byte) (s : State) : State :=
  s.accept.beginTransaction a payload rlen

/-- A `TICK`, before its first bus step: accepted, and either ended (`settle > 0`) or at the start of its first
transaction (43_identification.md R141 to R143, R150). -/
def acceptedTick (s : State) : State :=
  match s.pstate with
  | .uninitialized =>
    if 0 < s.settle then respondTick { s.beginTick with settle := s.settle - 1 } else beginInit s.beginTick
  | .active => beginPoll s.beginTick

/-! ## Control transfer (41_transaction.md R120) -/

/-- Where 41_transaction.md R120 sends `phase` when the bus step of the phase passes. -/
def State.passPhase (s : State) : Phase :=
  match s.phase with
  | .idle => .idle
  | .wStart => .wAddr
  | .wAddr => .wData
  | .wData => if s.idx.toNat + 1 < s.wlen.toNat then .wData else if s.rlen = 0 then .stopping else .rStart
  | .rStart => .rAddr
  | .rAddr => .rData
  | .rData => if s.idx.toNat + 1 < s.rlen.toNat then .rData else .stopping
  | .stopping => .idle
  | .rearming => .idle

/-- The kind of the bus step of a phase (10_state.md R17); none in `IDLE`. -/
def State.stepKind (s : State) : Option StepKind :=
  match s.phase with
  | .idle => none
  | .wStart => some .start
  | .wAddr => some .slaw
  | .wData => some .txd
  | .rStart => some .start
  | .rAddr => some .slar
  | .rData => some (if s.idx.toNat + 1 < s.rlen.toNat then .rxa else .rxn)
  | .stopping => some .stop
  | .rearming => some .rearm

/-- Where 41_transaction.md R120 sends `phase` when a transaction is accepted in `IDLE`. -/
def acceptPhase (payload : List Byte) (rlen : Byte) : Phase :=
  if payload = [] then if rlen = 0 then .idle else .rStart else .wStart

/-! ## What the environment answers -/

/-- The wait `n` is below `WAIT_LIMIT` (40_bus_steps.md R90). -/
def allows : WaitLimit → Nat → Bool
  | .inf, _ => true
  | .polls l _, n => decide (n < l)

/-- A scripted answer with all three fields given. -/
def answered (n : Nat) (st rx : Byte) : Override := { w := some (.polls n), status := some st, rx := some rx }

/-- The environment's next answer is `(n, st, rx)`, whatever the environment is otherwise. -/
abbrev State.NextAnswer (s : State) (n : Nat) (st rx : Byte) : Prop := s.env.script.head? = some (answered n st rx)

/-- A step that passes: its kind and data, its wait count, its status and the byte it receives. -/
structure PassingStep where
  kind : StepKind
  data : Byte
  wait : Nat
  status : Byte
  rx : Byte
deriving DecidableEq, Repr

/-- The scripted answers under which the given steps pass. -/
def passingScript (l : List PassingStep) : List Override :=
  l.map fun e => answered e.wait e.status e.rx

/-- The tokens of steps that pass (30_encoding.md R75). -/
def passingTokens (l : List PassingStep) : List Token :=
  l.map fun e => { word := e.kind.word e.data, reply := .ready e.wait e.status e.rx }

/-- The steps of a write phase (41_transaction.md R115). -/
def writeSteps (a : BusAddr) (payload : List Byte) : List (StepKind × Byte) :=
  (.start, 0) :: (.slaw, addrWrite a) :: payload.map fun d => (.txd, d)

/-- The steps of a read phase of `n` bytes (41_transaction.md R116): all but the last byte acknowledged. -/
def readSteps (a : BusAddr) (n : Nat) : List (StepKind × Byte) :=
  (.start, 0) :: (.slar, addrRead a) :: (List.replicate (n - 1) (.rxa, 0) ++ [(.rxn, 0)])

/-- The waiting steps of a transaction (30_encoding.md R72). -/
def transactionSteps (a : BusAddr) (payload : List Byte) (n : Nat) : List (StepKind × Byte) :=
  (if payload = [] then [] else writeSteps a payload) ++ (if n = 0 then [] else readSteps a n)

/-- The environment lets the given steps pass, each within `WAIT_LIMIT` and with a status that passes (either start
status for a `START`, R100), and nothing is scripted after them but `rest`. -/
abbrev State.LetsPass (s : State) (steps : List (StepKind × Byte)) (l : List PassingStep) (rest : List Override) : Prop :=
  l.map (fun e => (e.kind, e.data)) = steps ∧
    (∀ e ∈ l, allows s.params.waitLimit e.wait = true ∧ passes e.kind e.status = true) ∧
    s.env.script = passingScript l ++ rest

/-- The bytes received by the read steps among the given steps. -/
def receivedBytes (l : List PassingStep) : List Byte :=
  (l.filter fun e => e.kind == .rxa || e.kind == .rxn).map (·.rx)

/-- The token of a `STOP` and of a `REARM` (30_encoding.md R75: `P`, `X`). -/
def stopToken : Token := { word := StepKind.stop.word 0, reply := .noAnswer }
def rearmToken : Token := { word := StepKind.rearm.word 0, reply := .noAnswer }

/-- The next answer makes a step of kind `k` fail with result `c`, the block seeing the reply `r`: a status in time that
is classified so, or a wait that is given up (40_bus_steps.md R90, R100). -/
def State.NextFails (s : State) (k : StepKind) (o : Override) (r : Reply) (c : Result) : Prop :=
  (∃ n st rx, o = answered n st rx ∧ allows s.params.waitLimit n = true ∧ r = .ready n st rx ∧
      classifyStatus k st = some c) ∨
    (∃ l pos, s.params.waitLimit = .polls l pos ∧ (o.w = some .never ∨ ∃ n, o.w = some (.polls n) ∧ l ≤ n) ∧
      r = .notReady ∧ c = .timeout)

/-- The registers of the sequencer (10_state.md section 4) and its two flags. -/
def State.pis (s : State) : IdentCode × PState × PStep × PClass × Nat × Vector Byte 6 × Bool × Bool :=
  (s.ident, s.pstate, s.pstep, s.pclass, s.settle, s.sample, s.sampleValid, s.calibReset)

/-- The general registers (10_state.md section 1) but `RESULT`. -/
def State.general (s : State) : BusAddr × Byte × Byte × Vector Byte 255 × Vector Byte 255 × Byte :=
  (s.addr, s.wlen, s.rlen, s.wbuf, s.rbuf, s.rcount)

/-- What no operation changes or only the host command interface does: the parameters, the bytes presented, the
responses produced. -/
def State.interface (s : State) : Params × List Byte × List (List Byte) := (s.params, s.inbox, s.responses)

/-- Register `x` of the `k`-th peripheral: the model's read of one byte of memory (20_memory.md R41). -/
def State.registerAt (s : State) (k : Nat) (x : Byte) : Option Byte :=
  s.peripherals[k]?.map fun p => p.reg.read x.toNat

/-- The step word of an instruction that is a bus step waiting for the ready flag. -/
def waitingWord : Instr → Option StepWord
  | .start => some 0x000
  | .rstart => some 0x000
  | .slaw a => some (1#3 ++ (a ++ 0#1))
  | .slar a => some (1#3 ++ (a ++ 1#1))
  | .txd d => some (2#3 ++ d)
  | .rxa => some 0x300
  | .rxn => some 0x400
  | _ => none

/-- The pass status of 40_bus_steps.md R100, per instruction. -/
def passesWith : Instr → Byte → Bool
  | .start, st => st == 0x08 || st == 0x10
  | .rstart, st => st == 0x08 || st == 0x10
  | .slaw _, st => st == 0x18
  | .slar _, st => st == 0x40
  | .txd _, st => st == 0x28
  | .rxa, st => st == 0x50
  | .rxn, st => st == 0x58
  | _, _ => false

/-- The result code of a status that does not pass (40_bus_steps.md R100), per instruction. -/
def failsWith : Instr → Byte → Result
  | .slaw _, st => if st = 0x38 then .arbitrationLost else if st = 0x20 then .addressNack else .timeout
  | .slar _, st => if st = 0x38 then .arbitrationLost else if st = 0x48 then .addressNack else .timeout
  | .txd _, st => if st = 0x38 then .arbitrationLost else if st = 0x30 then .dataNack else .timeout
  | _, st => if st = 0x38 then .arbitrationLost else .timeout

/-- The step word of a bus step. -/
def busWord : Instr → Option StepWord
  | .stop => some 0x500
  | .rearm => some 0x600
  | i => waitingWord i

/-- The registers of an addressed peripheral that a payload `[r, v0, .. v(n-1)]` reaches (20_memory.md R45). -/
def reaches (payload : List Byte) (x : Byte) : Prop :=
  ∃ r vs, payload = r :: vs ∧ ∃ j, j < vs.length ∧ x = r + BitVec.ofNat 8 j

/-- A register write `[r, v0, .. v(n-1)]` redirects the peripheral (20_memory.md R48): it is of the secondary type, at
`ADDR_SECONDARY`, and sent `REDIRECT_VAL` for `REDIRECT_REG`. -/
def Peripheral.redirectedBy (p : Peripheral) (q : Params) (r : Byte) (vs : List Byte) : Prop :=
  p.secondary = true ∧ p.paddr = q.addrSecondary ∧
    ∃ j, r + BitVec.ofNat 8 j = q.redirectReg ∧ vs[j]? = some q.redirectVal

/-- The waiting steps of a register read (42_register_protocol.md R132); `split` mode has the same ones, with a `STOP`
between the two halves. -/
def readRegisterSteps (a : BusAddr) (r n : Byte) : List (StepKind × Byte) :=
  writeSteps a [r] ++ readSteps a n.toNat

/-- The waiting steps of `INIT` after the redirect write (43_identification.md R143). -/
def initSteps (p : Params) : List (StepKind × Byte) :=
  writeSteps p.addrPrimary [0xF0, 0x55] ++ writeSteps p.addrPrimary [0xFB, 0x00] ++
    readRegisterSteps p.addrPrimary 0xFE 2

/-- The steps of the redirect write (43_identification.md R144). -/
def redirectSteps (p : Params) : List (StepKind × Byte) :=
  writeSteps p.addrSecondary [p.redirectReg, p.redirectVal]

/-- The environment lets the steps of `INIT` pass: the redirect write with the tokens `redirect`, as a whole or with its
address step not acknowledged ("the ordinary case", 43_identification.md R144), and then the steps `l`. -/
def State.LetsInitPass (s : State) (redirect : List Token) (l : List PassingStep) (rest : List Override) : Prop :=
  (∃ h : List PassingStep, s.LetsPass (redirectSteps s.params ++ initSteps s.params) (h ++ l) rest ∧
      h.map (fun e => (e.kind, e.data)) = redirectSteps s.params ∧ redirect = passingTokens h ++ [stopToken]) ∨
    ∃ (n m : Nat) (st x y : Byte), allows s.params.waitLimit n ∧ allows s.params.waitLimit m ∧
      passes .start st = true ∧
      State.LetsPass { s with env := { s.env with script := s.env.script.drop 2 } } (initSteps s.params) l rest ∧
      s.env.script.take 2 = [answered n st x, answered m 0x20 y] ∧
      redirect = [{ word := StepKind.start.word 0, reply := .ready n st x },
        { word := StepKind.slaw.word (addrWrite s.params.addrSecondary), reply := .ready m 0x20 y }, stopToken]

/-- The tokens of a register read whose steps pass (42_register_protocol.md R132): in `split` mode a `STOP` follows the
pointer write too. -/
def readTokens (m : RegReadMode) (l : List PassingStep) : List Token :=
  match m with
  | .combined => passingTokens l ++ [stopToken]
  | .split => passingTokens (l.take 3) ++ [stopToken] ++ passingTokens (l.drop 3) ++ [stopToken]

/-- The tokens of `INIT` after the redirect write whose steps pass: the two handshake writes, "each as its own
transaction with its own `START` and `STOP`" (43_identification.md R145), and the identity read. -/
def initTokens (m : RegReadMode) (l : List PassingStep) : List Token :=
  passingTokens (l.take 4) ++ [stopToken] ++ passingTokens ((l.drop 4).take 4) ++ [stopToken] ++
    readTokens m (l.drop 8)

/-! ## The sequencer by its operations (43_identification.md R141, R143) -/

/-- One operation of `INIT`: its position, the instruction, and the results with which `INIT` goes on. -/
structure Piece where
  pstep : PStep
  instr : Instr
  goesOn : List Result
deriving DecidableEq, Repr

/-- The operations of `INIT`, in order (43_identification.md R143 to R146). -/
def initPieces (p : Params) : List Piece :=
  [⟨.redirect, .regwr p.addrSecondary p.redirectReg [p.redirectVal], [.ok, .addressNack]⟩,
    ⟨.hs1, .regwr p.addrPrimary 0xF0 [0x55], [.ok]⟩,
    ⟨.hs2, .regwr p.addrPrimary 0xFB [0x00], [.ok]⟩,
    ⟨.ident, .regrd p.addrPrimary 0xFE 2, [.ok]⟩]

/-- `INIT` with the given operations still to come, from `s`, returns `b` in state `t` (43_identification.md R143): a
result that does not let it go on ends it at once and returns false, the operations after it are not issued (R147), and
after the last one the identity is taken (R146). A block that hangs goes no further (60_exceptions.md R183). -/
def State.InitRuns (s : State) : List Piece → Bool → State → Prop
  | [], b, t => b = true ∧ t = { s with
      ident := identOf s.received
      pclass := classifyIdent s.params (identOf s.received)
      pstep := .idle }
  | e :: more, b, t => ∃ u, exec e.instr { s with pstep := e.pstep } = .next u ∧
      (u.hung = true → b = false ∧ t = u) ∧
      (u.hung = false → u.result ∉ e.goesOn → b = false ∧ t = { u with pstep := .idle }) ∧
      (u.hung = false → u.result ∈ e.goesOn → u.InitRuns more b t)

/-- `b` is `s` at the start of a `TICK`: accepted, `sample_valid` and `calib_reset` cleared (43_identification.md R141),
`SAMPLE` unspecified (10_state.md R26, U2). -/
def State.TickBegins (s b : State) : Prop :=
  b = { s with busy := true, sampleValid := false, calibReset := false, sample := b.sample, free := b.free }

end Sys2Proof.Machine
end

