-- ==== Sys2Proof/Certificates/Slice0/Obligations.lean ====
section
/-! DEFINITION. The statements about the machine. Each docstring says which rule of the spec it formalises, or that it
is derived and from what. -/

open Sys2Proof Sys2Proof.Machine Sys2Proof.Config

/-! ## Reset and the invariant -/

/-- Derived from R200, R201, R30 and R6: at reset every register R201 gives a value has it and the decided parameters
have their decided values (R6); the reset event puts those values back from any state, ends a hang, issues no bus step,
leaves the parameters (R203), and an attached `ENV0` starts with `owned = 0` and every `sel = none`. (The registers R201
calls unspecified are not mentioned: their values are log entry 4.) That the reset event keeps what is scripted, the
peripherals' registers, the presented bytes and the responses is the model's choice (log entry 15). -/
def Obligations.ResetLeavesSpecifiedValues : Prop :=
  (State.reset.trace = [] ∧ State.reset.params.regReadMode = .combined ∧ State.reset.params.fallthrough = true) ∧
    ∀ s t : State, (s = State.reset ∨ s = t.powerCycle) →
      s.rcount = 0 ∧ s.result = .ok ∧ s.phase = .idle ∧ s.idx = 0 ∧ s.waitcnt = 0 ∧ s.Idle ∧
        s.sampleValid = false ∧ s.calibReset = false ∧ s.pstate = .uninitialized ∧ s.pstep = .idle ∧
        s.pclass = .none ∧ s.ident = 0 ∧ s.settle = s.params.settleTicks ∧
        (∀ e, s.env.ref = some e → e.owned = false ∧ ∀ p ∈ e.peripherals, p.sel = .none) ∧
        (s = t.powerCycle → s.trace = t.trace ∧ s.params = t.params ∧ s.env.script = t.env.script ∧
          s.inbox = t.inbox ∧ s.responses = t.responses ∧ ∀ k x, s.registerAt k x = t.registerAt k x)

/-- Derived: the invariant holds at reset. -/
def Obligations.InvHoldsAtReset : Prop := Inv State.reset

/-- Derived from the invariants of R15, R18, R20, R23 to R25, R115, R116, R146, R154, R174, R183: every step keeps
them, from every state that meets them. -/
def Obligations.EveryStepKeepsInv : Prop := ∀ s t : State, Inv s → step s = .next t → Inv t

/-- Derived from R203 (1): the parameters "are constants of the block, not registers, and cannot be changed afterwards".
That every step answers a next state is the model's reading (log entry 21), and that a block that hangs answers the
same state too (log entry 7). -/
def Obligations.EveryStepGoesOnWithItsParameters : Prop := ∀ s : State, ∃ t, step s = .next t ∧ t.params = s.params

/-! ## Encoding -/

/-- Derived from R61 to R65: decoding the bytes of a well-formed host command gives it back, with what follows. -/
def Obligations.HostCommandsDecodeBack : Prop :=
  ∀ (i : Instr) (bytes rest : List Byte), i.wf = true → encode i = .host bytes →
    decodeHost (bytes ++ rest) = .command i rest

/-- Derived from R61 to R65: a decoded command is well formed and its bytes stood at the front. -/
def Obligations.DecodedCommandsEncodeBack : Prop :=
  ∀ (bs rest : List Byte) (i : Instr), decodeHost bs = .command i rest →
    i.wf = true ∧ ∃ bytes, encode i = .host bytes ∧ bs = bytes ++ rest

/-- R63: "Every 24-bit header with bit 23 = 0 selects exactly one row: there is no reserved `XACT` header." -/
def Obligations.XactFormFollowsLengths : Prop :=
  ∀ (b0 wlen rlen : Byte) (payload rest : List Byte), b0.getLsbD 7 = false → payload.length = wlen.toNat →
    decodeHost (b0 :: wlen :: rlen :: (payload ++ rest)) =
      .command
        (if wlen = 0 then
          if rlen = 0 then .xactInv (b0.extractLsb' 0 7) else .xactR (b0.extractLsb' 0 7) rlen
        else if rlen = 0 then .xactW (b0.extractLsb' 0 7) payload
        else .xactWr (b0.extractLsb' 0 7) payload rlen) rest

/-- Derived from R60, R62, R67: the bytes that are no command. -/
def Obligations.BytesThatAreNoCommand : Prop :=
  (∀ (bs rest : List Byte) (b : Byte),
      decodeHost bs = .reserved b rest ↔ bs = b :: rest ∧ 0x81 ≤ b.toNat) ∧
    ∀ bs : List Byte, decodeHost bs = .incomplete ↔
      (bs = [] ∨ ∃ b0 tail, bs = b0 :: tail ∧ b0.toNat < 0x80 ∧
        (tail.length < 2 ∨ bs.length < 3 + (bs.getD 1 0).toNat))

/-- Derived from R69 and R74: a bus step's step word decodes to it (`RSTART` shares the word of `START` and is told
from it by the phase), a step word that decodes is the word of what it decodes to, and the rest are the reserved `op`
and the non-zero data. -/
def Obligations.StepWordsRoundTrip : Prop :=
  (∀ (i : Instr) (w : StepWord), encode i = .step w → decodeStepWord (i == .rstart) w = .step i) ∧
    ∀ (b : Bool) (w : StepWord),
      (∀ i, decodeStepWord b w = .step i → encode i = .step w) ∧
        (decodeStepWord b w = .reservedOp ↔ w.extractLsb' 8 3 = 7#3) ∧
        (decodeStepWord b w = .nonzeroData ↔
          w.extractLsb' 8 3 ∈ [0#3, 3#3, 4#3, 5#3, 6#3] ∧ w.extractLsb' 0 8 ≠ 0#8)

/-- Derived from the examples of 95_test_vectors.md section 2.1: words written out decode to what they stand for. -/
def Obligations.WrittenWordsDecode : Prop :=
  decodeHost [0x52, 0x02, 0x00, 0xF0, 0x55] = .command (.xactW 0x52 [0xF0, 0x55]) [] ∧
    decodeHost [0x52, 0x00, 0x02] = .command (.xactR 0x52 2) [] ∧
    decodeHost [0x52, 0x01, 0x06, 0x00] = .command (.xactWr 0x52 [0x00] 6) [] ∧
    decodeHost [0x00, 0x00, 0x00] = .command (.xactInv 0x00) [] ∧
    decodeHost [0x80] = .command .tick [] ∧
    decodeHost [0xC0] = .reserved 0xC0 [] ∧
    decodeStepWord false 0x000 = .step .start ∧ decodeStepWord true 0x000 = .step .rstart ∧
    decodeStepWord false 0x1A4 = .step (.slaw 0x52) ∧ decodeStepWord false 0x1A5 = .step (.slar 0x52) ∧
    decodeStepWord false 0x255 = .step (.txd 0x55) ∧ decodeStepWord false 0x300 = .step .rxa ∧
    decodeStepWord false 0x400 = .step .rxn ∧ decodeStepWord false 0x500 = .step .stop ∧
    decodeStepWord false 0x600 = .step .rearm

/-! ## One step of the machine -/

/-- Derived from R20 and R60: an idle block runs the command its presented bytes decode to, having consumed them. That
one step is the whole command is the model's choice (log entry 1). -/
def Obligations.StepRunsDecodedCommand : Prop :=
  ∀ (s : State) (i : Instr) (rest : List Byte), s.Idle → decodeHost s.inbox = .command i rest →
    step s = exec i { s with inbox := rest }

/-- Derived from R17, R92 to R101: a block in a transaction runs the bus step of its phase. That one step of such a
block is one bus step is the model's choice (log entry 1); in `IDLE` see `CommandIsItsBusSteps` (log entry 20). -/
def Obligations.StepIssuesBusStepOfPhase : Prop :=
  ∀ s : State, s.busy = true → s.hung = false →
    (s.phase = .wStart → step s = exec .start s) ∧
      (s.phase = .wAddr → step s = exec (.slaw s.addr) s) ∧
      (s.phase = .wData → ∀ h : s.idx.toNat < 255, step s = exec (.txd s.wbuf[s.idx.toNat]) s) ∧
      (s.phase = .rStart → s.wlen = 0 → step s = exec .start s) ∧
      (s.phase = .rStart → s.wlen ≠ 0 → step s = exec .rstart s) ∧
      (s.phase = .rAddr → step s = exec (.slar s.addr) s) ∧
      (s.phase = .rData → s.idx.toNat + 1 < s.rlen.toNat → step s = exec .rxa s) ∧
      (s.phase = .rData → s.idx.toNat + 1 = s.rlen.toNat → step s = exec .rxn s) ∧
      (s.phase = .stopping → step s = exec .stop s) ∧
      (s.phase = .rearming → step s = exec .rearm s)

/-- R67: a reserved first byte. -/
def Obligations.ReservedByteIsRejected : Prop :=
  ∀ (s : State) (b : Byte) (rest : List Byte), s.Idle → s.inbox = b :: rest → 0x81 ≤ b.toNat →
    step s = .next { s with
      inbox := rest
      result := .invalidArgument
      rcount := 0
      responses := s.responses ++ [[0x01, 0x00]] }

/-- Derived from R62 and U11: an incomplete command is not accepted and changes nothing. -/
def Obligations.IncompleteCommandChangesNothing : Prop :=
  ∀ s : State, s.Idle → decodeHost s.inbox = .incomplete → step s = .next s

/-- Derived from R183: from the hang on nothing happens, whatever is asked of the block. R183 says so of the response,
`busy`, `phase`, commands and bus steps; that the whole state stays, `waitcnt` included, is the model's reading (log
entry 7). -/
def Obligations.HangKeepsEverything : Prop :=
  ∀ s : State, s.hung = true → step s = .next s ∧ ∀ i : Instr, exec i s = .next s

/-- Derived from R20 and U9: "A command presented while `busy = 1` is not accepted and has no effect (it stays
pending at the interface)". -/
def Obligations.BusyBlockAcceptsNothing : Prop :=
  ∀ s : State, s.busy = true →
    (∀ i : Instr, (i = .tick ∨ (xactOperands i).isSome = true) → exec i s = .next s) ∧
      ∀ t, step s = .next t → t.inbox = s.inbox

/-! ## Bus steps -/

/-- Derived from R92, R93, R115, R116: `START` and `RSTART` pass with either start status. -/
def Obligations.StartStepsPass : Prop :=
  ∀ (s : State) (n : Nat) (st rx : Byte), s.hung = false → s.NextAnswer n st rx →
    allows s.params.waitLimit n → st = 0x08 ∨ st = 0x10 →
    (s.phase = .wStart → ∃ t, exec .start s = .next t ∧ t.env.script = s.env.script.tail ∧ t = { s with
      phase := .wAddr, waitcnt := n, env := t.env, free := t.free
      trace := s.trace ++ [{ word := 0x000, reply := .ready n st rx }] }) ∧
    (s.phase = .rStart → ∃ t, exec .start s = .next t ∧ t.env.script = s.env.script.tail ∧ t = { s with
      phase := .rAddr, waitcnt := n, env := t.env, free := t.free
      trace := s.trace ++ [{ word := 0x000, reply := .ready n st rx }] }) ∧
    ∃ t, exec .rstart s = .next t ∧ t.env.script = s.env.script.tail ∧ t = { s with
      phase := .rAddr, waitcnt := n, env := t.env, free := t.free
      trace := s.trace ++ [{ word := 0x000, reply := .ready n st rx }] }

/-- Derived from R94, R95, R71: `SLAW` and `SLAR` pass. -/
def Obligations.AddressStepsPass : Prop :=
  ∀ (s : State) (a : BusAddr) (n : Nat) (rx : Byte), s.hung = false → allows s.params.waitLimit n →
    (s.NextAnswer n 0x18 rx → ∃ t, exec (.slaw a) s = .next t ∧ t.env.script = s.env.script.tail ∧ t = { s with
      idx := 0, phase := .wData, waitcnt := n, env := t.env, free := t.free
      trace := s.trace ++ [{ word := 1#3 ++ (a ++ 0#1), reply := .ready n 0x18 rx }] }) ∧
    (s.NextAnswer n 0x40 rx → ∃ t, exec (.slar a) s = .next t ∧ t.env.script = s.env.script.tail ∧ t = { s with
      idx := 0, phase := .rData, waitcnt := n, env := t.env, free := t.free
      trace := s.trace ++ [{ word := 1#3 ++ (a ++ 1#1), reply := .ready n 0x40 rx }] })

/-- Derived from R96: `TXD` passes. -/
def Obligations.TxdPasses : Prop :=
  ∀ (s : State) (d : Byte) (n : Nat) (rx : Byte), s.hung = false → allows s.params.waitLimit n →
    s.NextAnswer n 0x28 rx → s.idx.toNat < s.wlen.toNat →
    ∃ t, exec (.txd d) s = .next t ∧ t.env.script = s.env.script.tail ∧ t.idx.toNat = s.idx.toNat + 1 ∧ t = { s with
      idx := t.idx, waitcnt := n, env := t.env, free := t.free
      phase := if s.idx.toNat + 1 < s.wlen.toNat then .wData else if s.rlen = 0 then .stopping else .rStart
      trace := s.trace ++ [{ word := 2#3 ++ d, reply := .ready n 0x28 rx }] }

/-- Derived from R97 and R101: `RXA` and `RXN` pass and store the byte received. -/
def Obligations.ReadStepsPass : Prop :=
  ∀ (s : State) (n : Nat) (rx : Byte) (h : s.idx.toNat < 255), s.hung = false → allows s.params.waitLimit n →
    s.rcount.toNat < 255 →
    (s.NextAnswer n 0x50 rx → ∃ t, exec .rxa s = .next t ∧ t.env.script = s.env.script.tail ∧
      t.idx.toNat = s.idx.toNat + 1 ∧ t.rcount.toNat = s.rcount.toNat + 1 ∧ t = { s with
        rbuf := s.rbuf.set s.idx.toNat rx, rcount := t.rcount, idx := t.idx
        phase := .rData, waitcnt := n, env := t.env, free := t.free
        trace := s.trace ++ [{ word := 0x300, reply := .ready n 0x50 rx }] }) ∧
    (s.NextAnswer n 0x58 rx → ∃ t, exec .rxn s = .next t ∧ t.env.script = s.env.script.tail ∧
      t.idx.toNat = s.idx.toNat + 1 ∧ t.rcount.toNat = s.rcount.toNat + 1 ∧ t = { s with
        rbuf := s.rbuf.set s.idx.toNat rx, rcount := t.rcount, idx := t.idx
        phase := .stopping, waitcnt := n, env := t.env, free := t.free
        trace := s.trace ++ [{ word := 0x400, reply := .ready n 0x58 rx }] })

/-- R98 and R99, as far as they concern the block: `STOP` and `REARM` do not wait and cannot fail; in `ENV0` both give
up the bus (R47). -/
def Obligations.ReleaseStepsComplete : Prop :=
  ∀ s : State, s.hung = false →
    (∃ t, exec .stop s = .next t ∧ t.env.script = s.env.script ∧ (∀ e, t.env.ref = some e → e.owned = false) ∧
      t = { s with phase := .idle, env := t.env, trace := s.trace ++ [{ word := 0x500, reply := .noAnswer }] }) ∧
    ∃ t, exec .rearm s = .next t ∧ t.env.script = s.env.script ∧ (∀ e, t.env.ref = some e → e.owned = false) ∧
      t = { s with phase := .idle, env := t.env, trace := s.trace ++ [{ word := 0x600, reply := .noAnswer }] }

/-- Derived from R100 and R174: a waiting step whose status does not pass raises its result code; the recovery is
`REARM` after `ARBITRATION_LOST` and `STOP` otherwise; nothing received is stored. -/
def Obligations.FailingStatusRaises : Prop :=
  ∀ (s : State) (i : Instr) (w : StepWord) (n : Nat) (st rx : Byte), s.hung = false → waitingWord i = some w →
    s.NextAnswer n st rx → allows s.params.waitLimit n → passesWith i st = false →
    ∃ t, exec i s = .next t ∧ t.env.script = s.env.script.tail ∧ t = { s with
      result := failsWith i st
      phase := if failsWith i st = .arbitrationLost then .rearming else .stopping
      waitcnt := n, env := t.env, free := t.free
      trace := s.trace ++ [{ word := w, reply := .ready n st rx }] }

/-- Derived from R90, R100, R176 (3): a wait of `WAIT_LIMIT` polls or more is given up and is `TIMEOUT`, whatever the
status. -/
def Obligations.GivenUpWaitIsTimeout : Prop :=
  ∀ (s : State) (i : Instr) (w : StepWord) (l : Nat) (pos : 1 ≤ l) (o : Override), s.hung = false →
    waitingWord i = some w → s.params.waitLimit = .polls l pos → s.env.script.head? = some o →
    (o.w = some .never ∨ ∃ n, o.w = some (.polls n) ∧ l ≤ n) →
    ∃ t, exec i s = .next t ∧ t.env.script = s.env.script.tail ∧ t = { s with
      result := .timeout, phase := .stopping, waitcnt := l, env := t.env, free := t.free
      trace := s.trace ++ [{ word := w, reply := .notReady }] }

/-- Derived from R90 and R183: with `WAIT_LIMIT = INF` a ready flag that never rises hangs the block in the phase of
the step; that `waitcnt` stays 0 in such a wait is the model's choice (log entry 7). -/
def Obligations.EndlessWaitHangs : Prop :=
  ∀ (s : State) (i : Instr) (w : StepWord) (o : Override), s.hung = false → waitingWord i = some w →
    s.params.waitLimit = .inf → s.env.script.head? = some o → o.w = some .never →
    ∃ t, exec i s = .next t ∧ t = { s with
      hung := true, waitcnt := 0, env := t.env, free := t.free
      trace := s.trace ++ [{ word := w, reply := .never }] }

/-- R100: the classification table, total over all statuses and `NOT_READY`. -/
def Obligations.ClassificationTable : Prop :=
  ∀ (n : Nat) (st rx : Byte),
    classify .start (.ready n st rx) =
        (if st = 0x08 ∨ st = 0x10 then none else if st = 0x38 then some .arbitrationLost else some .timeout) ∧
      classify .slaw (.ready n st rx) =
        (if st = 0x18 then none else if st = 0x20 then some .addressNack
          else if st = 0x38 then some .arbitrationLost else some .timeout) ∧
      classify .slar (.ready n st rx) =
        (if st = 0x40 then none else if st = 0x48 then some .addressNack
          else if st = 0x38 then some .arbitrationLost else some .timeout) ∧
      classify .txd (.ready n st rx) =
        (if st = 0x28 then none else if st = 0x30 then some .dataNack
          else if st = 0x38 then some .arbitrationLost else some .timeout) ∧
      classify .rxa (.ready n st rx) =
        (if st = 0x50 then none else if st = 0x38 then some .arbitrationLost else some .timeout) ∧
      classify .rxn (.ready n st rx) =
        (if st = 0x58 then none else if st = 0x38 then some .arbitrationLost else some .timeout) ∧
      ∀ k : StepKind, classify k .notReady = some .timeout

/-- Derived from R102: "Every bus step appends exactly one token", "No bus step other than `RXA` and `RXN` writes a
general register; no bus step writes a PIS register"; and the interface registers stay. `RESULT` changes only when the
step fails, with the phase. -/
def Obligations.BusStepFrame : Prop :=
  ∀ (s t : State) (i : Instr) (w : StepWord), busWord i = some w → s.hung = false → exec i s = .next t →
    (∃ r, t.trace = s.trace ++ [{ word := w, reply := r }]) ∧ t.pis = s.pis ∧ t.interface = s.interface ∧
      t.busy = s.busy ∧
      (i ≠ .rxa → i ≠ .rxn → t.general = s.general) ∧
      (t.addr, t.wlen, t.rlen, t.wbuf) = (s.addr, s.wlen, s.rlen, s.wbuf) ∧
      (∀ j : Fin 255, j.val ≠ s.idx.toNat → t.rbuf[j] = s.rbuf[j]) ∧
      (t.result = s.result ∨ t.phase = .stopping ∨ t.phase = .rearming)

/-- Derived from R45, R48, R49: the memory frame of the bus steps. Only `TXD` stores, and only at the pointer of a
peripheral selected for writing (`sel = wr`). That it stores nothing at one selected for reading is the model's choice
(log entry 23). -/
def Obligations.OnlyTxdStoresAndOnlyAtThePointer : Prop :=
  ∀ (s t : State) (i : Instr) (w : StepWord) (k : Nat) (x : Byte), busWord i = some w → exec i s = .next t →
    (∀ p d, s.peripherals[k]? = some p → i = .txd d → ¬(p.sel = .wr ∧ p.ptr = x)) →
    t.registerAt k x = s.registerAt k x

/-- Derived from R48: what `TXD` stores in a peripheral selected for writing. That it is stored whatever answer a script
puts in place of `ENV0`'s is the model's reading (log entry 13), and that every one of several selected peripherals
stores it is the model's choice (log entry 11). -/
def Obligations.TxdStoresAtThePointer : Prop :=
  ∀ (s t : State) (d : Byte) (k : Nat) (p : Peripheral), s.hung = false → exec (.txd d) s = .next t →
    s.peripherals[k]? = some p → p.reg.wf → p.sel = .wr →
    t.registerAt k p.ptr = some d ∧ ∃ q, t.peripherals[k]? = some q ∧ q.ptr = p.ptr + 1

/-- Derived from R120 (which the spec derives from R110 to R118): the complete `phase` transition relation. Accepting a
command leaves `IDLE` by the two lengths. A bus step that is answered adds one token, and the classification of that
token's reply decides: on `PASS` the phase moves as listed and `RESULT` stays; otherwise the phase is one of the six
waiting phases, `RESULT` is the class, and the phase becomes `REARMING` for `ARBITRATION_LOST` and `STOPPING` for the
rest. (`idx < 255` is R18.) -/
def Obligations.PhaseMovesAsListed : Prop :=
  (∀ (s : State) (a : BusAddr) (payload : List Byte) (rlen : Byte), s.phase = .idle →
      (accepted a payload rlen s).phase = acceptPhase payload rlen) ∧
    ∀ (s t : State) (k : StepKind), s.busy = true → s.hung = false → s.stepKind = some k → s.idx.toNat < 255 →
      step s = .next t → t.hung = false →
      ∃ w r, t.trace = s.trace ++ [{ word := w, reply := r }] ∧ w.extractLsb' 8 3 = k.op ∧
        (classify k r = none → t.phase = s.passPhase ∧ t.result = s.result) ∧
        ∀ c, classify k r = some c → s.phase.waits = true ∧ t.result = c ∧
          (c = .arbitrationLost ∧ t.phase = .rearming ∨
            (c = .addressNack ∨ c = .dataNack ∨ c = .timeout) ∧ t.phase = .stopping)

/-! ## Transactions -/

/-- R111: `XACT.INV`. -/
def Obligations.EmptyTransactionIsInvalid : Prop :=
  ∀ (s : State) (a : BusAddr), s.Idle →
    exec (.xactInv a) s = .next { s with
      addr := a, wlen := 0, rlen := 0, rcount := 0, idx := 0, waitcnt := 0
      result := .invalidArgument
      responses := s.responses ++ [[0x01, 0x00]] }

/-- Derived from R112 to R117, R64, R72: a transaction all of whose steps pass is answered `OK` with all bytes, and its
trace is the steps of its frame in order, then `STOP`. A `START` of either kind may be answered by either start status
(R100). -/
def Obligations.PassingTransactionCompletes : Prop :=
  ∀ (s : State) (i : Instr) (a : BusAddr) (payload : List Byte) (rlen : Byte) (l : List PassingStep)
    (rest : List Override), xactOperands i = some (a, payload, rlen) → i.wf = true → i ≠ .xactInv a → s.Idle →
    s.LetsPass (transactionSteps a payload rlen.toNat) l rest →
    ∃ t, exec i s = .next t ∧ t.result = .ok ∧ t.rcount = rlen ∧ t.received = receivedBytes l ∧
      t.trace = s.trace ++ passingTokens l ++ [stopToken] ∧
      t.responses = s.responses ++ [0x00 :: rlen :: receivedBytes l] ∧
      t.Idle ∧ t.addr = a ∧ t.rlen = rlen ∧ t.wlen.toNat = payload.length ∧
      t.wbuf.toList.take payload.length = payload ∧ t.env.script = rest ∧ t.inbox = s.inbox ∧
      (s.phase = .idle → t.phase = .idle)

/-- Derived from R118, R174, R176: the first step that does not pass, by its status or because its wait is given up,
ends the transaction with its result, exactly one recovery step follows, and the bytes already read are still
returned. -/
def Obligations.FailurePointEndsTransaction : Prop :=
  ∀ (s : State) (i : Instr) (a : BusAddr) (payload : List Byte) (rlen : Byte) (l : List PassingStep)
    (k : StepKind) (d : Byte) (more : List (StepKind × Byte)) (o : Override) (r : Reply) (c : Result)
    (rest : List Override), xactOperands i = some (a, payload, rlen) → i.wf = true → s.Idle →
    transactionSteps a payload rlen.toNat = l.map (fun e => (e.kind, e.data)) ++ (k, d) :: more →
    s.LetsPass (l.map fun e => (e.kind, e.data)) l (o :: rest) → s.NextFails k o r c →
    ∃ t, exec i s = .next t ∧ t.result = c ∧ t.received = receivedBytes l ∧ t.Idle ∧
      t.rcount.toNat = (receivedBytes l).length ∧
      t.trace = s.trace ++ passingTokens l ++ [{ word := k.word d, reply := r },
        if c = .arbitrationLost then rearmToken else stopToken] ∧
      t.responses = s.responses ++ [c.code.setWidth 8 :: t.rcount :: receivedBytes l] ∧ t.env.script = rest

/-- Derived from R119 (which the spec derives from R110 to R118): the phases do what the function `Transact` does, under every environment: same result, same data, same bus
trace, same environment after it, and they hang together. -/
def Obligations.TransactionIsTransact : Prop :=
  ∀ (s : State) (i : Instr) (a : BusAddr) (payload : List Byte) (rlen : Byte),
    xactOperands i = some (a, payload, rlen) → i.wf = true → s.Idle →
    ∃ t, exec i s = .next t ∧ t.trace = (specTransact a payload rlen.toNat s).2.trace ∧
      t.env = (specTransact a payload rlen.toNat s).2.env ∧
      match (specTransact a payload rlen.toNat s).1 with
      | none => t.hung = true ∧ t.busy = true ∧ t.responses = s.responses
      | some (c, d) => t.Idle ∧ t.result = c ∧ t.received = d ∧
          t.responses = s.responses ++ [c.code.setWidth 8 :: BitVec.ofNat 8 d.length :: d]

/-- Derived from R20, R17, R120, R121, R23: running a host command in one step is the same as accepting it and then
taking one step at a time, each a bus step or a move of the sequencer between two transactions, up to the response (or
into the hang). This holds of the direct transactions and of `TICK`. What one step is, is the model's choice (log entries
1 and 20). -/
def Obligations.CommandIsItsBusSteps : Prop :=
  (∀ (s : State) (i : Instr) (a : BusAddr) (payload : List Byte) (rlen : Byte),
    xactOperands i = some (a, payload, rlen) → i.wf = true → s.Idle → s.phase = .idle → s.pstep = .idle →
    ∃ k, Sys2Proof.core.run k (accepted a payload rlen s) = exec i s) ∧
  ∀ s : State, s.Idle → ∃ k, Sys2Proof.core.run k (acceptedTick s) = exec .tick s

/-- R121, last part: "A direct host `XACT` command never reads or writes a PIS register"; it leaves the parameters and
the bytes presented too. -/
def Obligations.DirectTransactionsKeepTheSequencer : Prop :=
  ∀ (s t : State) (i : Instr), (xactOperands i).isSome = true → exec i s = .next t →
    t.pis = s.pis ∧ t.params = s.params ∧ t.inbox = s.inbox

/-- Derived from R171: the results each operation can produce. `REGWR` and `REGRD` are issued by a busy block too. -/
def Obligations.ResultsOfEachOperation : Prop :=
  ∀ (s t : State) (i : Instr), i.wf = true → s.hung = false → exec i s = .next t → t.hung = false →
    (s.busy = false →
      ((∃ a, i = .xactInv a) → t.result = .invalidArgument) ∧
        ((∃ a p, i = .xactW a p) → t.result ≠ .invalidArgument) ∧
        ((∃ a n, i = .xactR a n) → t.result ≠ .invalidArgument ∧ t.result ≠ .dataNack) ∧
        ((∃ a p n, i = .xactWr a p n) → t.result ≠ .invalidArgument)) ∧
      ((∃ a r vs, i = .regwr a r vs) → t.result ≠ .invalidArgument) ∧
      ((∃ a r n, i = .regrd a r n) → t.result ≠ .invalidArgument)

/-- R171, last sentence: "With a finite `WAIT_LIMIT` every accepted command produces a response", whatever the
environment answers: exactly one, and the block is idle again. -/
def Obligations.FiniteWaitAlwaysResponds : Prop :=
  ∀ (s : State) (i : Instr) (n : Nat) (pos : 1 ≤ n), s.params.waitLimit = .polls n pos → i.wf = true →
    i = .tick ∨ (xactOperands i).isSome = true → s.Idle →
    ∃ t bytes, exec i s = .next t ∧ t.Idle ∧ t.responses = s.responses ++ [bytes]

/-- Derived from R119: a transaction "issues at most `wlen + rlen + 5` bus steps". -/
def Obligations.TransactionStepBound : Prop :=
  ∀ (s t : State) (i : Instr) (a : BusAddr) (payload : List Byte) (rlen : Byte),
    xactOperands i = some (a, payload, rlen) → i.wf = true → exec i s = .next t →
    ∃ tokens, t.trace = s.trace ++ tokens ∧ tokens.length ≤ payload.length + rlen.toNat + 5

/-- Derived from R54, R117, R174: a transaction that is answered and is not empty ends with exactly one release of the
bus, `REARM` after arbitration loss and `STOP` otherwise, and has none before; in `ENV0` the bus is then free (R30). -/
def Obligations.TransactionReleasesBusOnce : Prop :=
  ∀ (s t : State) (i : Instr), (xactOperands i).isSome = true → i.wf = true → (∀ a, i ≠ .xactInv a) → s.Idle →
    exec i s = .next t → t.hung = false →
    (∃ tokens, t.trace = s.trace ++ tokens ++ [if t.result = .arbitrationLost then rearmToken else stopToken] ∧
        ∀ tok ∈ tokens, tok.reply ≠ .noAnswer) ∧
      ∀ e, t.env.ref = some e → e.owned = false

/-- Derived from R45, R48: the memory frame of the host's transactions. A transaction changes a register only in a
peripheral that answered at its address when it began, and only at `r, r+1, ..` for the values after the pointer
byte. -/
def Obligations.TransactionStoresOnlyItsPayload : Prop :=
  ∀ (s t : State) (i : Instr) (a : BusAddr) (payload : List Byte) (rlen : Byte) (k : Nat) (p : Peripheral)
    (x : Byte), xactOperands i = some (a, payload, rlen) → i.wf = true → exec i s = .next t →
    s.peripherals[k]? = some p → ¬(p.answersAt a = true ∧ reaches payload x) →
    t.registerAt k x = s.registerAt k x

/-! ## Register protocol -/

/-- R131: `REGWR a, r, v` is the transaction of `XACT a W[r v] R0`, without command and response. -/
def Obligations.RegwrExpandsToXactW : Prop :=
  ∀ (s : State) (a : BusAddr) (r : Byte) (vs : List Byte), (Instr.regwr a r vs).wf = true → s.hung = false →
    ∃ u, exec (.xactW a (r :: vs)) { s with busy := false } = .next u ∧
      exec (.regwr a r vs) s = .next { u with busy := s.busy, responses := s.responses }

/-- R132: `REGRD a, r, n` is one `XACT.WR` in `combined` mode, and in `split` mode an `XACT.W` and then, if that is
`OK`, an `XACT.R`. -/
def Obligations.RegrdExpandsByMode : Prop :=
  ∀ (s : State) (a : BusAddr) (r n : Byte), (Instr.regrd a r n).wf = true → s.hung = false →
    (s.params.regReadMode = .combined →
      ∃ u, exec (.xactWr a [r] n) { s with busy := false } = .next u ∧
        exec (.regrd a r n) s = .next { u with busy := s.busy, responses := s.responses }) ∧
    (s.params.regReadMode = .split →
      ∃ u, exec (.xactW a [r]) { s with busy := false } = .next u ∧
        (u.hung = true ∨ u.result ≠ .ok →
          exec (.regrd a r n) s = .next { u with busy := s.busy, responses := s.responses }) ∧
        (u.hung = false → u.result = .ok →
          ∃ v, exec (.xactR a n) { u with pstep := s.pstep.readHalf } = .next v ∧
            exec (.regrd a r n) s = .next { v with busy := s.busy, responses := s.responses }))

/-- Derived from R131: a register write whose steps all pass ends `OK`. -/
def Obligations.PassingRegisterWriteCompletes : Prop :=
  ∀ (s : State) (a : BusAddr) (r : Byte) (vs : List Byte) (l : List PassingStep) (rest : List Override),
    (Instr.regwr a r vs).wf = true → s.hung = false → s.LetsPass (writeSteps a (r :: vs)) l rest →
    ∃ t, exec (.regwr a r vs) s = .next t ∧ t.result = .ok ∧ t.rcount = 0 ∧ t.phase = .idle ∧
      t.trace = s.trace ++ passingTokens l ++ [stopToken] ∧ t.env.script = rest ∧ t.pis = s.pis ∧
      t.interface = s.interface ∧ t.busy = s.busy ∧ t.hung = false

/-- Derived from R132: a register read whose steps all pass ends `OK` with `n` bytes. -/
def Obligations.PassingRegisterReadCompletes : Prop :=
  ∀ (s : State) (a : BusAddr) (r n : Byte) (l : List PassingStep) (rest : List Override),
    (Instr.regrd a r n).wf = true → s.hung = false → s.LetsPass (readRegisterSteps a r n) l rest →
    ∃ t, exec (.regrd a r n) s = .next t ∧ t.result = .ok ∧ t.rcount = n ∧ t.received = receivedBytes l ∧
      t.phase = .idle ∧ t.env.script = rest ∧ t.interface = s.interface ∧ t.busy = s.busy ∧ t.hung = false ∧
      (s.params.regReadMode = .combined → t.pis = s.pis ∧ t.trace = s.trace ++ passingTokens l ++ [stopToken]) ∧
      (s.params.regReadMode = .split → t.pstep = s.pstep.readHalf ∧
        t.trace = s.trace ++ passingTokens (l.take 3) ++ [stopToken] ++ passingTokens (l.drop 3) ++ [stopToken])

/-- Derived from R45, R47, R48, R131: in the reference environment a register write stores its values at consecutive
registers of the addressed peripheral and leaves every other register; at its `STOP` a peripheral with a redirect noted,
before or by this write (a secondary-type one at `ADDR_SECONDARY` that is sent `REDIRECT_VAL` for `REDIRECT_REG`), moves
to `ADDR_PRIMARY`, and any other stays where it is. -/
def Obligations.RegisterWriteReachesPeripheral : Prop :=
  ∀ (s : State) (e : Env0) (p : Peripheral) (a : BusAddr) (r : Byte) (vs : List Byte),
    (Instr.regwr a r vs).wf = true → s.hung = false → s.env = { ref := some e, script := [] } →
    e.peripherals = [p] → p.reg.wf → p.answersAt a = true →
    ∃ t, exec (.regwr a r vs) s = .next t ∧ t.result = .ok ∧
      (∀ j (h : j < vs.length), t.registerAt 0 (r + BitVec.ofNat 8 j) = some vs[j]) ∧
      (∀ x, (∀ j, j < vs.length → x ≠ r + BitVec.ofNat 8 j) → t.registerAt 0 x = s.registerAt 0 x) ∧
      ∃ q, t.peripherals = [q] ∧ q.redirectPending = false ∧
        (p.redirectPending = true ∨ p.redirectedBy s.params r vs → q.paddr = s.params.addrPrimary) ∧
        (p.redirectPending = false → ¬p.redirectedBy s.params r vs → q.paddr = p.paddr)

/-- Derived from R45, R49, R132: in the reference environment a register read returns consecutive registers of the
addressed peripheral (the pointer wraps after `0xFF` there, U14) and changes none. (In `split` mode a redirect already
noted would take effect at the `STOP` between the two transactions.) -/
def Obligations.RegisterReadReturnsRegisters : Prop :=
  ∀ (s : State) (e : Env0) (p : Peripheral) (a : BusAddr) (r n : Byte),
    (Instr.regrd a r n).wf = true → s.hung = false → s.env = { ref := some e, script := [] } →
    e.peripherals = [p] → p.answersAt a = true →
    (p.redirectPending = false ∨ s.params.regReadMode = .combined) →
    ∃ t, exec (.regrd a r n) s = .next t ∧ t.result = .ok ∧
      t.received = (List.range n.toNat).map (fun j => p.reg.read (r + BitVec.ofNat 8 j).toNat) ∧
      ∀ x, t.registerAt 0 x = s.registerAt 0 x

/-! ## The sequencer -/

/-- R142, first sentence: a `TICK` in `Uninitialized` with `settle > 0` only counts down. `SAMPLE` is unspecified after
it (R26, U2): its bytes are free values. -/
def Obligations.SettleTickOnlyCountsDown : Prop :=
  ∀ s : State, s.Idle → s.pstate = .uninitialized → 0 < s.settle → s.pclass = .none → s.ident = 0 →
    ∃ t, exec .tick s = .next t ∧ t = { s with
      settle := s.settle - 1
      sampleValid := false
      calibReset := false
      sample := t.sample
      free := t.free
      responses := s.responses ++ [[0x00, 0x00, 0x00]] }

/-- Derived from R202 and R142: ticks without bus activity until the settle counter is 0. -/
def Obligations.SettleTicksPassWithoutBusActivity : Prop :=
  ∀ (k : Nat) (s : State), s.Idle → s.pstate = .uninitialized → s.pclass = .none → s.ident = 0 → k ≤ s.settle →
    s.inbox = List.replicate k 0x80 →
    ∃ t, Sys2Proof.core.run k s = .next t ∧ t.trace = s.trace ∧ t.settle = s.settle - k ∧
      t.responses = s.responses ++ List.replicate k [0x00, 0x00, 0x00] ∧ t.Idle ∧ t.pstate = .uninitialized

/-- Derived from R154 (which the spec derives from R141 to R152): the complete relation of a `TICK` on `(pstate,
settle)` (`FALLTHROUGH = true`), with its flags and its bus activity, and the invariants at its end. The condition of a
row is what `init` returned and the result of `poll`, the bus activity theirs (what those are: `INIT` in
`InitIdentifiesOrLeavesIdentity`, `POLL` in the two statements after this). -/
def Obligations.TickMovesAsTabulated : Prop :=
  ∀ s t : State, Inv s → s.Idle → s.params.fallthrough = true → exec .tick s = .next t → t.hung = false →
    t.pstep = .idle ∧ (t.pclass = .none ↔ t.pstate = .uninitialized) ∧
      (t.sampleValid = true → t.pstate = .active) ∧ (t.pstate = .active → t.settle = 0) ∧
      t.responses = s.responses ++ [t.tickResponse] ∧
      (s.pstate = .uninitialized → 0 < s.settle →
        t.pstate = .uninitialized ∧ t.settle = s.settle - 1 ∧ t.calibReset = false ∧ t.sampleValid = false ∧
          t.trace = s.trace) ∧
      (s.pstate = .uninitialized → s.settle = 0 → ∃ b u, s.TickBegins b ∧ exec .init b = .next u ∧
        ((init b).1 = false →
          t = { u with settle := s.params.settleTicks, busy := false, responses := t.responses } ∧
            t.pstate = .uninitialized ∧ t.settle = s.params.settleTicks ∧ t.calibReset = false ∧
            t.sampleValid = false ∧ t.pclass = .none ∧ t.ident = 0) ∧
        ((init b).1 = true → ∃ v, exec .poll { u with pstate := .active, calibReset := true } = .next v ∧
          t = { v with busy := false, responses := t.responses } ∧
          (v.result = .ok → t.pstate = .active ∧ t.settle = 0 ∧ t.calibReset = true ∧ t.sampleValid = true ∧
            t.ident = u.ident ∧ t.pclass = u.pclass) ∧
          (v.result ≠ .ok → t.pstate = .uninitialized ∧ t.settle = s.params.settleTicks ∧ t.calibReset = true ∧
            t.sampleValid = false))) ∧
      (s.pstate = .active → ∃ b v, s.TickBegins b ∧ exec .poll b = .next v ∧
        t = { v with busy := false, responses := t.responses } ∧
        (v.result = .ok → t.pstate = .active ∧ t.settle = 0 ∧ t.calibReset = false ∧ t.sampleValid = true ∧
          t.ident = s.ident ∧ t.pclass = s.pclass) ∧
        (v.result ≠ .ok → t.pstate = .uninitialized ∧ t.settle = s.params.settleTicks ∧ t.calibReset = true ∧
          t.sampleValid = false))

/-- Derived from R150: `POLL` is the register read of its expansion; with `OK` it delivers the six bytes received and
writes nothing else. A report read whose steps all pass is so, with the trace of its steps at the primary address. -/
def Obligations.PassingPollDeliversSample : Prop :=
  (∀ s t : State, s.hung = false → exec .poll s = .next t → t.hung = false → t.result = .ok →
    ∃ u, exec (.regrd s.params.addrPrimary 0x00 6) { s with pstep := .poll } = .next u ∧
      t = { u with pstep := .idle, sampleValid := true, sample := t.sample } ∧ t.sample.toList = u.received) ∧
  ∀ (s : State) (l : List PassingStep) (rest : List Override), s.hung = false →
    s.LetsPass (readRegisterSteps s.params.addrPrimary 0x00 6) l rest →
    ∃ t, exec .poll s = .next t ∧ t.sampleValid = true ∧ t.sample.toList = receivedBytes l ∧ t.pstep = .idle ∧
      t.result = .ok ∧ t.trace = s.trace ++ readTokens s.params.regReadMode l ∧
      t.hung = false ∧ (t.ident, t.pstate, t.pclass, t.settle, t.calibReset) =
        (s.ident, s.pstate, s.pclass, s.settle, s.calibReset) ∧
      t.interface = s.interface ∧ t.busy = s.busy ∧ t.env.script = rest

/-- Derived from R150, R151: any failing report read drops the sequencer to `Uninitialized`, and nothing is issued after
that read. `SAMPLE` becomes unspecified (U2). -/
def Obligations.FailedPollDropsToUninitialized : Prop :=
  ∀ s t : State, s.hung = false → exec .poll s = .next t → t.hung = false → t.result ≠ .ok →
    ∃ u, exec (.regrd s.params.addrPrimary 0x00 6) { s with pstep := .poll } = .next u ∧
      t = { u with
        pstate := .uninitialized, pclass := .none, ident := 0, settle := s.params.settleTicks
        sampleValid := false, calibReset := true, pstep := .idle, sample := t.sample, free := t.free }

/-- Derived from R143 to R146, R46: `INIT` whose steps pass issues the redirect write, the two handshake writes in their
order and the identity read, leaves the identity, "assembled big-endian", and its classification, and writes no other
register of the sequencer. -/
def Obligations.PassingInitIdentifies : Prop :=
  ∀ (s : State) (redirect : List Token) (l : List PassingStep) (rest : List Override), s.hung = false →
    s.LetsInitPass redirect l rest →
    ∃ (t : State) (d0 d1 : Byte), exec .init s = .next t ∧ receivedBytes l = [d0, d1] ∧ t.result = .ok ∧
      t.trace = s.trace ++ redirect ++ initTokens s.params.regReadMode l ∧
      t.ident = d0 ++ d1 ∧ t.pclass = classifyIdent s.params (d0 ++ d1) ∧ t.pstep = .idle ∧ t.hung = false ∧
      (t.pstate, t.settle, t.sample, t.sampleValid, t.calibReset) =
        (s.pstate, s.settle, s.sample, s.sampleValid, s.calibReset) ∧
      t.interface = s.interface ∧ t.busy = s.busy ∧ t.env.script = rest

/-- Derived from R143 to R147, R176 (5): `INIT` is the operations of its expansion one after another, ended by the first
failure, which for the redirect write is any result but `OK` and `ADDRESS_NACK` and for the others any but `OK`; it
returns true exactly when it ends `OK`, with the identity of the two bytes read, and leaves `ident`, `pclass` and
`pstate` as they were otherwise. -/
def Obligations.InitIdentifiesOrLeavesIdentity : Prop :=
  (∀ p : Params, (initPieces p).map (·.instr) = expansion p .init) ∧
  ∀ s t : State, s.hung = false → exec .init s = .next t →
    s.InitRuns (initPieces s.params) (init s).1 t ∧
      (t.hung = false →
        t.pstep = .idle ∧ (t.pstate, t.settle, t.sample, t.sampleValid, t.calibReset) =
            (s.pstate, s.settle, s.sample, s.sampleValid, s.calibReset) ∧
          ((init s).1 = true ↔ t.result = .ok) ∧
          (t.result = .ok → t.rcount = 2 ∧ t.ident = identOf t.received ∧ t.pclass = classifyIdent s.params t.ident) ∧
          (t.result ≠ .ok → t.ident = s.ident ∧ t.pclass = s.pclass))

/-- Derived from R141, R143, R148 to R150: a `TICK` in `Uninitialized` with `settle = 0` whose steps all pass issues the
transactions of `INIT` and the report read, and ends `Active` with the identity, the sample and `calib_reset` raised. -/
def Obligations.PassingTickIdentifiesAndPolls : Prop :=
  ∀ (s : State) (redirect : List Token) (l m : List PassingStep) (rest : List Override), s.Idle →
    s.pstate = .uninitialized → s.settle = 0 →
    s.params.fallthrough = true → s.LetsInitPass redirect l (passingScript m ++ rest) →
    m.map (fun e => (e.kind, e.data)) = readRegisterSteps s.params.addrPrimary 0x00 6 →
    (∀ e ∈ m, allows s.params.waitLimit e.wait = true ∧ passes e.kind e.status = true) →
    ∃ (t : State) (d0 d1 : Byte), exec .tick s = .next t ∧ receivedBytes l = [d0, d1] ∧ t.Idle ∧
      t.trace = s.trace ++ redirect ++ initTokens s.params.regReadMode l ++ readTokens s.params.regReadMode m ∧
      t.pstate = .active ∧ t.ident = d0 ++ d1 ∧ t.pclass = classifyIdent s.params (d0 ++ d1) ∧ t.settle = 0 ∧
      t.sampleValid = true ∧ t.sample.toList = receivedBytes m ∧ t.calibReset = true ∧ t.env.script = rest ∧
      t.responses = s.responses ++ [t.tickByte0 :: d0 :: d1 :: receivedBytes m]

/-- Derived from R141, R150: a `TICK` in `Active` whose steps all pass issues the report read, delivers a sample and
changes nothing else of the sequencer. -/
def Obligations.PassingTickPolls : Prop :=
  ∀ (s : State) (m : List PassingStep) (rest : List Override), s.Idle → s.pstate = .active →
    s.LetsPass (readRegisterSteps s.params.addrPrimary 0x00 6) m rest →
    ∃ t, exec .tick s = .next t ∧ t.Idle ∧ t.sampleValid = true ∧ t.sample.toList = receivedBytes m ∧
      t.trace = s.trace ++ readTokens s.params.regReadMode m ∧ t.calibReset = false ∧
      (t.ident, t.pstate, t.pclass, t.settle) = (s.ident, s.pstate, s.pclass, s.settle) ∧ t.env.script = rest ∧
      t.responses = s.responses ++ [t.tickByte0 :: s.ident.extractLsb' 8 8 :: s.ident.extractLsb' 0 8 ::
        receivedBytes m]

/-- Derived from R143 to R150, R47 to R49 (programs P1 and P3 of 95_test_vectors.md for any parameters and any
registers): in the reference environment with one settled peripheral, at the primary address or of the secondary type at
the secondary address, the first effective `TICK` after reset identifies it by its registers `0xFE`, `0xFF` and delivers
its registers `0x00` to `0x05`, and the peripheral ends at the primary address. `g` is what its registers read after the
redirect write, which reaches it only at the secondary address. -/
def Obligations.TickIdentifiesAttachedPeripheral : Prop :=
  ∀ (s : State) (e : Env0) (p : Peripheral) (g : Byte → Byte), Inv s → s.Idle → s.pstate = .uninitialized →
    s.settle = 0 → s.params.fallthrough = true → s.env = { ref := some e, script := [] } → e.peripherals = [p] →
    (p.answersAt s.params.addrPrimary = true ∧ (∀ x, g x = p.reg.read x.toNat)) ∨
      (p.answersAt s.params.addrSecondary = true ∧ p.secondary = true ∧
        ∀ x, g x = if x = s.params.redirectReg then s.params.redirectVal else p.reg.read x.toNat) →
    ∃ t, exec .tick s = .next t ∧ t.Idle ∧ t.pstate = .active ∧
      t.ident = g 0xFE ++ g 0xFF ∧ t.pclass = classifyIdent s.params t.ident ∧
      t.sampleValid = true ∧ t.sample.toList = [g 0, g 1, g 2, g 3, g 4, g 5] ∧ t.calibReset = true ∧
      t.registerAt 0 0xF0 = some 0x55 ∧ t.registerAt 0 0xFB = some 0x00 ∧
      (∀ x, x ≠ 0xF0 → x ≠ 0xFB → t.registerAt 0 x = some (g x)) ∧
      ∃ q, t.peripherals = [q] ∧ q.paddr = s.params.addrPrimary

/-- Derived from R121, R133, R42: the frame of the sequencer's operations. `REGWR`, `REGRD`, `INIT` and `POLL` neither
take nor answer a command, and none of them or `TICK` touches the parameters or the bytes presented; a read or a `POLL`
changes no register of a peripheral, `INIT` and `TICK` none but `0xF0`, `0xFB` and the redirect register, and `REGWR`
only those its values reach in a peripheral that answered at its address when it began. -/
def Obligations.SequencerFrame : Prop :=
  ∀ (s t : State) (i : Instr) (k : Nat) (x : Byte), exec i s = .next t →
    (i = .tick ∨ i = .init → t.params = s.params ∧ t.inbox = s.inbox ∧
      (x ≠ 0xF0 → x ≠ 0xFB → x ≠ s.params.redirectReg → t.registerAt k x = s.registerAt k x)) ∧
    (i = .poll ∨ (∃ a r n, i = .regrd a r n) → t.registerAt k x = s.registerAt k x) ∧
    (i = .init ∨ i = .poll ∨ (∃ a r n, i = .regrd a r n) ∨ (∃ a r vs, i = .regwr a r vs) →
      t.interface = s.interface ∧ t.busy = s.busy) ∧
    ((∃ a r vs, i = .regwr a r vs) → t.pis = s.pis) ∧
    ∀ a r vs p, i = .regwr a r vs → i.wf = true → s.peripherals[k]? = some p →
      ¬(p.answersAt a = true ∧ reaches (r :: vs) x) → t.registerAt k x = s.registerAt k x

/-- R153 and R27: `Classify`, with the codes of any valid binding, and `dtable`. -/
def Obligations.ClassifyByIdentityCode : Prop :=
  (∀ (p : Params) (id : IdentCode),
    (id = p.idNunchuk → classifyIdent p id = .nunchuk) ∧
      (id = p.idClassic → classifyIdent p id = .classicController) ∧
      (id = p.idMotionPlus → classifyIdent p id = .motionPlus) ∧
      (id ≠ p.idNunchuk → id ≠ p.idClassic → id ≠ p.idMotionPlus → classifyIdent p id = .unknown) ∧
      classifyIdent p id ≠ .none) ∧
    dtable .nunchuk = some .motionSensor ∧ dtable .unknown = some .motionSensor ∧
    dtable .classicController = some .classic ∧ dtable .motionPlus = some .inertial ∧ dtable .none = none

/-- R66: the `TICK` response, of the values at the end of the tick, with the codes of R22 and R24. -/
def Obligations.TickResponseLayout : Prop :=
  (∀ s t : State, s.Idle → exec .tick s = .next t → t.hung = false →
    ∃ b0 : Byte, t.responses = s.responses ++ [b0 :: t.ident.extractLsb' 8 8 :: t.ident.extractLsb' 0 8 ::
        (if t.sampleValid = true then t.sample.toList else [])] ∧
      b0.extractLsb' 0 1 = t.pstate.code ∧ b0.extractLsb' 1 3 = t.pclass.code ∧ b0.getLsbD 4 = t.sampleValid ∧
      b0.getLsbD 5 = t.calibReset ∧ b0.extractLsb' 6 2 = 0) ∧
    (PState.code .uninitialized = 0 ∧ PState.code .active = 1) ∧
    PClass.code .none = 0 ∧ PClass.code .nunchuk = 1 ∧ PClass.code .classicController = 2 ∧
    PClass.code .motionPlus = 3 ∧ PClass.code .unknown = 4

/-- R201: "\"Unspecified\" means a model must not let any observable output depend on the value". Two states that meet
the invariant and agree but for what is unspecified step to states that again agree, responses and bus trace
included. -/
def Obligations.NothingDependsOnUnspecifiedValues : Prop :=
  ∀ s s' t : State, Inv s → Inv s' → Agree s s' → step s = .next t → ∃ t', step s' = .next t' ∧ Agree t t'
end

