-- ==== Sys2Proof/Laws/State.lean ====
section
/-! SUPPORT. What each shared update does to each field of the state, one lemma per field, true by `rfl`. -/

namespace Sys2Proof.Machine

section
variable (s : State) (w : StepWord) (r : Reply)
@[simp] theorem State.emit_params : (s.emit w r).params = s.params := rfl
@[simp] theorem State.emit_addr : (s.emit w r).addr = s.addr := rfl
@[simp] theorem State.emit_wlen : (s.emit w r).wlen = s.wlen := rfl
@[simp] theorem State.emit_rlen : (s.emit w r).rlen = s.rlen := rfl
@[simp] theorem State.emit_wbuf : (s.emit w r).wbuf = s.wbuf := rfl
@[simp] theorem State.emit_rbuf : (s.emit w r).rbuf = s.rbuf := rfl
@[simp] theorem State.emit_rcount : (s.emit w r).rcount = s.rcount := rfl
@[simp] theorem State.emit_result : (s.emit w r).result = s.result := rfl
@[simp] theorem State.emit_phase : (s.emit w r).phase = s.phase := rfl
@[simp] theorem State.emit_idx : (s.emit w r).idx = s.idx := rfl
@[simp] theorem State.emit_waitcnt : (s.emit w r).waitcnt = s.waitcnt := rfl
@[simp] theorem State.emit_busy : (s.emit w r).busy = s.busy := rfl
@[simp] theorem State.emit_hung : (s.emit w r).hung = s.hung := rfl
@[simp] theorem State.emit_ident : (s.emit w r).ident = s.ident := rfl
@[simp] theorem State.emit_pstate : (s.emit w r).pstate = s.pstate := rfl
@[simp] theorem State.emit_pstep : (s.emit w r).pstep = s.pstep := rfl
@[simp] theorem State.emit_pclass : (s.emit w r).pclass = s.pclass := rfl
@[simp] theorem State.emit_settle : (s.emit w r).settle = s.settle := rfl
@[simp] theorem State.emit_sample : (s.emit w r).sample = s.sample := rfl
@[simp] theorem State.emit_sampleValid : (s.emit w r).sampleValid = s.sampleValid := rfl
@[simp] theorem State.emit_calibReset : (s.emit w r).calibReset = s.calibReset := rfl
@[simp] theorem State.emit_trace : (s.emit w r).trace = s.trace ++ [{ word := w, reply := r }] := rfl
@[simp] theorem State.emit_responses : (s.emit w r).responses = s.responses := rfl
@[simp] theorem State.emit_inbox : (s.emit w r).inbox = s.inbox := rfl
@[simp] theorem State.emit_env : (s.emit w r).env = s.env := rfl
@[simp] theorem State.emit_free : (s.emit w r).free = s.free := rfl
end

section
variable (s : State) (k : StepKind) (d : Byte)
@[simp] theorem State.drawn_params : (s.drawn k d).params = s.params := rfl
@[simp] theorem State.drawn_addr : (s.drawn k d).addr = s.addr := rfl
@[simp] theorem State.drawn_wlen : (s.drawn k d).wlen = s.wlen := rfl
@[simp] theorem State.drawn_rlen : (s.drawn k d).rlen = s.rlen := rfl
@[simp] theorem State.drawn_wbuf : (s.drawn k d).wbuf = s.wbuf := rfl
@[simp] theorem State.drawn_rbuf : (s.drawn k d).rbuf = s.rbuf := rfl
@[simp] theorem State.drawn_rcount : (s.drawn k d).rcount = s.rcount := rfl
@[simp] theorem State.drawn_result : (s.drawn k d).result = s.result := rfl
@[simp] theorem State.drawn_phase : (s.drawn k d).phase = s.phase := rfl
@[simp] theorem State.drawn_idx : (s.drawn k d).idx = s.idx := rfl
@[simp] theorem State.drawn_waitcnt : (s.drawn k d).waitcnt = s.waitcnt := rfl
@[simp] theorem State.drawn_busy : (s.drawn k d).busy = s.busy := rfl
@[simp] theorem State.drawn_hung : (s.drawn k d).hung = s.hung := rfl
@[simp] theorem State.drawn_ident : (s.drawn k d).ident = s.ident := rfl
@[simp] theorem State.drawn_pstate : (s.drawn k d).pstate = s.pstate := rfl
@[simp] theorem State.drawn_pstep : (s.drawn k d).pstep = s.pstep := rfl
@[simp] theorem State.drawn_pclass : (s.drawn k d).pclass = s.pclass := rfl
@[simp] theorem State.drawn_settle : (s.drawn k d).settle = s.settle := rfl
@[simp] theorem State.drawn_sample : (s.drawn k d).sample = s.sample := rfl
@[simp] theorem State.drawn_sampleValid : (s.drawn k d).sampleValid = s.sampleValid := rfl
@[simp] theorem State.drawn_calibReset : (s.drawn k d).calibReset = s.calibReset := rfl
@[simp] theorem State.drawn_trace : (s.drawn k d).trace = s.trace := rfl
@[simp] theorem State.drawn_responses : (s.drawn k d).responses = s.responses := rfl
@[simp] theorem State.drawn_inbox : (s.drawn k d).inbox = s.inbox := rfl
@[simp] theorem State.drawn_env : (s.drawn k d).env = (s.env.draw s.params s.free k d).1 := rfl
@[simp] theorem State.drawn_free : (s.drawn k d).free = s.free + 1 := rfl
end

section
variable (s : State) (k : StepKind) (d : Byte)
@[simp] theorem State.busWait_params : (s.busWait k d).params = s.params := rfl
@[simp] theorem State.busWait_addr : (s.busWait k d).addr = s.addr := rfl
@[simp] theorem State.busWait_wlen : (s.busWait k d).wlen = s.wlen := rfl
@[simp] theorem State.busWait_rlen : (s.busWait k d).rlen = s.rlen := rfl
@[simp] theorem State.busWait_wbuf : (s.busWait k d).wbuf = s.wbuf := rfl
@[simp] theorem State.busWait_rbuf : (s.busWait k d).rbuf = s.rbuf := rfl
@[simp] theorem State.busWait_rcount : (s.busWait k d).rcount = s.rcount := rfl
@[simp] theorem State.busWait_result : (s.busWait k d).result = s.result := rfl
@[simp] theorem State.busWait_phase : (s.busWait k d).phase = s.phase := rfl
@[simp] theorem State.busWait_idx : (s.busWait k d).idx = s.idx := rfl
@[simp] theorem State.busWait_waitcnt : (s.busWait k d).waitcnt = waitcntAfter s.params.waitLimit (s.replyTo k d) := rfl
@[simp] theorem State.busWait_busy : (s.busWait k d).busy = s.busy := rfl
@[simp] theorem State.busWait_hung : (s.busWait k d).hung = (s.hung || s.replyTo k d == .never) := rfl
@[simp] theorem State.busWait_ident : (s.busWait k d).ident = s.ident := rfl
@[simp] theorem State.busWait_pstate : (s.busWait k d).pstate = s.pstate := rfl
@[simp] theorem State.busWait_pstep : (s.busWait k d).pstep = s.pstep := rfl
@[simp] theorem State.busWait_pclass : (s.busWait k d).pclass = s.pclass := rfl
@[simp] theorem State.busWait_settle : (s.busWait k d).settle = s.settle := rfl
@[simp] theorem State.busWait_sample : (s.busWait k d).sample = s.sample := rfl
@[simp] theorem State.busWait_sampleValid : (s.busWait k d).sampleValid = s.sampleValid := rfl
@[simp] theorem State.busWait_calibReset : (s.busWait k d).calibReset = s.calibReset := rfl
@[simp] theorem State.busWait_trace : (s.busWait k d).trace = s.trace ++ [{ word := k.word d, reply := s.replyTo k d }] := rfl
@[simp] theorem State.busWait_responses : (s.busWait k d).responses = s.responses := rfl
@[simp] theorem State.busWait_inbox : (s.busWait k d).inbox = s.inbox := rfl
@[simp] theorem State.busWait_env : (s.busWait k d).env = (s.env.draw s.params s.free k d).1 := rfl
@[simp] theorem State.busWait_free : (s.busWait k d).free = s.free + 1 := rfl
end

section
variable (s : State) (k : StepKind)
@[simp] theorem State.busRelease_params : (s.busRelease k).params = s.params := rfl
@[simp] theorem State.busRelease_addr : (s.busRelease k).addr = s.addr := rfl
@[simp] theorem State.busRelease_wlen : (s.busRelease k).wlen = s.wlen := rfl
@[simp] theorem State.busRelease_rlen : (s.busRelease k).rlen = s.rlen := rfl
@[simp] theorem State.busRelease_wbuf : (s.busRelease k).wbuf = s.wbuf := rfl
@[simp] theorem State.busRelease_rbuf : (s.busRelease k).rbuf = s.rbuf := rfl
@[simp] theorem State.busRelease_rcount : (s.busRelease k).rcount = s.rcount := rfl
@[simp] theorem State.busRelease_result : (s.busRelease k).result = s.result := rfl
@[simp] theorem State.busRelease_phase : (s.busRelease k).phase = s.phase := rfl
@[simp] theorem State.busRelease_idx : (s.busRelease k).idx = s.idx := rfl
@[simp] theorem State.busRelease_waitcnt : (s.busRelease k).waitcnt = s.waitcnt := rfl
@[simp] theorem State.busRelease_busy : (s.busRelease k).busy = s.busy := rfl
@[simp] theorem State.busRelease_hung : (s.busRelease k).hung = s.hung := rfl
@[simp] theorem State.busRelease_ident : (s.busRelease k).ident = s.ident := rfl
@[simp] theorem State.busRelease_pstate : (s.busRelease k).pstate = s.pstate := rfl
@[simp] theorem State.busRelease_pstep : (s.busRelease k).pstep = s.pstep := rfl
@[simp] theorem State.busRelease_pclass : (s.busRelease k).pclass = s.pclass := rfl
@[simp] theorem State.busRelease_settle : (s.busRelease k).settle = s.settle := rfl
@[simp] theorem State.busRelease_sample : (s.busRelease k).sample = s.sample := rfl
@[simp] theorem State.busRelease_sampleValid : (s.busRelease k).sampleValid = s.sampleValid := rfl
@[simp] theorem State.busRelease_calibReset : (s.busRelease k).calibReset = s.calibReset := rfl
@[simp] theorem State.busRelease_trace : (s.busRelease k).trace = s.trace ++ [{ word := k.word 0, reply := .noAnswer }] := rfl
@[simp] theorem State.busRelease_responses : (s.busRelease k).responses = s.responses := rfl
@[simp] theorem State.busRelease_inbox : (s.busRelease k).inbox = s.inbox := rfl
@[simp] theorem State.busRelease_env : (s.busRelease k).env = s.env.release s.params k := rfl
@[simp] theorem State.busRelease_free : (s.busRelease k).free = s.free := rfl
end

section
variable (s : State) (c : Result)
@[simp] theorem State.raise_params : (s.raise c).params = s.params := rfl
@[simp] theorem State.raise_addr : (s.raise c).addr = s.addr := rfl
@[simp] theorem State.raise_wlen : (s.raise c).wlen = s.wlen := rfl
@[simp] theorem State.raise_rlen : (s.raise c).rlen = s.rlen := rfl
@[simp] theorem State.raise_wbuf : (s.raise c).wbuf = s.wbuf := rfl
@[simp] theorem State.raise_rbuf : (s.raise c).rbuf = s.rbuf := rfl
@[simp] theorem State.raise_rcount : (s.raise c).rcount = s.rcount := rfl
@[simp] theorem State.raise_result : (s.raise c).result = c := rfl
@[simp] theorem State.raise_phase : (s.raise c).phase = recoveryPhase c := rfl
@[simp] theorem State.raise_idx : (s.raise c).idx = s.idx := rfl
@[simp] theorem State.raise_waitcnt : (s.raise c).waitcnt = s.waitcnt := rfl
@[simp] theorem State.raise_busy : (s.raise c).busy = s.busy := rfl
@[simp] theorem State.raise_hung : (s.raise c).hung = s.hung := rfl
@[simp] theorem State.raise_ident : (s.raise c).ident = s.ident := rfl
@[simp] theorem State.raise_pstate : (s.raise c).pstate = s.pstate := rfl
@[simp] theorem State.raise_pstep : (s.raise c).pstep = s.pstep := rfl
@[simp] theorem State.raise_pclass : (s.raise c).pclass = s.pclass := rfl
@[simp] theorem State.raise_settle : (s.raise c).settle = s.settle := rfl
@[simp] theorem State.raise_sample : (s.raise c).sample = s.sample := rfl
@[simp] theorem State.raise_sampleValid : (s.raise c).sampleValid = s.sampleValid := rfl
@[simp] theorem State.raise_calibReset : (s.raise c).calibReset = s.calibReset := rfl
@[simp] theorem State.raise_trace : (s.raise c).trace = s.trace := rfl
@[simp] theorem State.raise_responses : (s.raise c).responses = s.responses := rfl
@[simp] theorem State.raise_inbox : (s.raise c).inbox = s.inbox := rfl
@[simp] theorem State.raise_env : (s.raise c).env = s.env := rfl
@[simp] theorem State.raise_free : (s.raise c).free = s.free := rfl
end

section
variable (s : State) (b : List Byte)
@[simp] theorem State.respond_params : (s.respond b).params = s.params := rfl
@[simp] theorem State.respond_addr : (s.respond b).addr = s.addr := rfl
@[simp] theorem State.respond_wlen : (s.respond b).wlen = s.wlen := rfl
@[simp] theorem State.respond_rlen : (s.respond b).rlen = s.rlen := rfl
@[simp] theorem State.respond_wbuf : (s.respond b).wbuf = s.wbuf := rfl
@[simp] theorem State.respond_rbuf : (s.respond b).rbuf = s.rbuf := rfl
@[simp] theorem State.respond_rcount : (s.respond b).rcount = s.rcount := rfl
@[simp] theorem State.respond_result : (s.respond b).result = s.result := rfl
@[simp] theorem State.respond_phase : (s.respond b).phase = s.phase := rfl
@[simp] theorem State.respond_idx : (s.respond b).idx = s.idx := rfl
@[simp] theorem State.respond_waitcnt : (s.respond b).waitcnt = s.waitcnt := rfl
@[simp] theorem State.respond_busy : (s.respond b).busy = false := rfl
@[simp] theorem State.respond_hung : (s.respond b).hung = s.hung := rfl
@[simp] theorem State.respond_ident : (s.respond b).ident = s.ident := rfl
@[simp] theorem State.respond_pstate : (s.respond b).pstate = s.pstate := rfl
@[simp] theorem State.respond_pstep : (s.respond b).pstep = s.pstep := rfl
@[simp] theorem State.respond_pclass : (s.respond b).pclass = s.pclass := rfl
@[simp] theorem State.respond_settle : (s.respond b).settle = s.settle := rfl
@[simp] theorem State.respond_sample : (s.respond b).sample = s.sample := rfl
@[simp] theorem State.respond_sampleValid : (s.respond b).sampleValid = s.sampleValid := rfl
@[simp] theorem State.respond_calibReset : (s.respond b).calibReset = s.calibReset := rfl
@[simp] theorem State.respond_trace : (s.respond b).trace = s.trace := rfl
@[simp] theorem State.respond_responses : (s.respond b).responses = s.responses ++ [b] := rfl
@[simp] theorem State.respond_inbox : (s.respond b).inbox = s.inbox := rfl
@[simp] theorem State.respond_env : (s.respond b).env = s.env := rfl
@[simp] theorem State.respond_free : (s.respond b).free = s.free := rfl
end

section
variable (s : State) (a : BusAddr) (p : List Byte) (n : Byte)
@[simp] theorem State.loadTransaction_params : (s.loadTransaction a p n).params = s.params := rfl
@[simp] theorem State.loadTransaction_addr : (s.loadTransaction a p n).addr = a := rfl
@[simp] theorem State.loadTransaction_wlen : (s.loadTransaction a p n).wlen = BitVec.ofNat 8 p.length := rfl
@[simp] theorem State.loadTransaction_rlen : (s.loadTransaction a p n).rlen = n := rfl
@[simp] theorem State.loadTransaction_wbuf : (s.loadTransaction a p n).wbuf = loadBuffer s.wbuf p := rfl
@[simp] theorem State.loadTransaction_rbuf : (s.loadTransaction a p n).rbuf = s.rbuf := rfl
@[simp] theorem State.loadTransaction_rcount : (s.loadTransaction a p n).rcount = 0 := rfl
@[simp] theorem State.loadTransaction_result : (s.loadTransaction a p n).result = .ok := rfl
@[simp] theorem State.loadTransaction_phase : (s.loadTransaction a p n).phase = s.phase := rfl
@[simp] theorem State.loadTransaction_idx : (s.loadTransaction a p n).idx = 0 := rfl
@[simp] theorem State.loadTransaction_waitcnt : (s.loadTransaction a p n).waitcnt = 0 := rfl
@[simp] theorem State.loadTransaction_busy : (s.loadTransaction a p n).busy = s.busy := rfl
@[simp] theorem State.loadTransaction_hung : (s.loadTransaction a p n).hung = s.hung := rfl
@[simp] theorem State.loadTransaction_ident : (s.loadTransaction a p n).ident = s.ident := rfl
@[simp] theorem State.loadTransaction_pstate : (s.loadTransaction a p n).pstate = s.pstate := rfl
@[simp] theorem State.loadTransaction_pstep : (s.loadTransaction a p n).pstep = s.pstep := rfl
@[simp] theorem State.loadTransaction_pclass : (s.loadTransaction a p n).pclass = s.pclass := rfl
@[simp] theorem State.loadTransaction_settle : (s.loadTransaction a p n).settle = s.settle := rfl
@[simp] theorem State.loadTransaction_sample : (s.loadTransaction a p n).sample = s.sample := rfl
@[simp] theorem State.loadTransaction_sampleValid : (s.loadTransaction a p n).sampleValid = s.sampleValid := rfl
@[simp] theorem State.loadTransaction_calibReset : (s.loadTransaction a p n).calibReset = s.calibReset := rfl
@[simp] theorem State.loadTransaction_trace : (s.loadTransaction a p n).trace = s.trace := rfl
@[simp] theorem State.loadTransaction_responses : (s.loadTransaction a p n).responses = s.responses := rfl
@[simp] theorem State.loadTransaction_inbox : (s.loadTransaction a p n).inbox = s.inbox := rfl
@[simp] theorem State.loadTransaction_env : (s.loadTransaction a p n).env = s.env := rfl
@[simp] theorem State.loadTransaction_free : (s.loadTransaction a p n).free = s.free := rfl
end

section
variable (s : State)
@[simp] theorem State.accept_params : s.accept.params = s.params := rfl
@[simp] theorem State.accept_addr : s.accept.addr = s.addr := rfl
@[simp] theorem State.accept_wlen : s.accept.wlen = s.wlen := rfl
@[simp] theorem State.accept_rlen : s.accept.rlen = s.rlen := rfl
@[simp] theorem State.accept_wbuf : s.accept.wbuf = s.wbuf := rfl
@[simp] theorem State.accept_rbuf : s.accept.rbuf = s.rbuf := rfl
@[simp] theorem State.accept_rcount : s.accept.rcount = s.rcount := rfl
@[simp] theorem State.accept_result : s.accept.result = s.result := rfl
@[simp] theorem State.accept_phase : s.accept.phase = s.phase := rfl
@[simp] theorem State.accept_idx : s.accept.idx = s.idx := rfl
@[simp] theorem State.accept_waitcnt : s.accept.waitcnt = s.waitcnt := rfl
@[simp] theorem State.accept_busy : s.accept.busy = true := rfl
@[simp] theorem State.accept_hung : s.accept.hung = s.hung := rfl
@[simp] theorem State.accept_ident : s.accept.ident = s.ident := rfl
@[simp] theorem State.accept_pstate : s.accept.pstate = s.pstate := rfl
@[simp] theorem State.accept_pstep : s.accept.pstep = s.pstep := rfl
@[simp] theorem State.accept_pclass : s.accept.pclass = s.pclass := rfl
@[simp] theorem State.accept_settle : s.accept.settle = s.settle := rfl
@[simp] theorem State.accept_sample : s.accept.sample = s.sample := rfl
@[simp] theorem State.accept_sampleValid : s.accept.sampleValid = s.sampleValid := rfl
@[simp] theorem State.accept_calibReset : s.accept.calibReset = s.calibReset := rfl
@[simp] theorem State.accept_trace : s.accept.trace = s.trace := rfl
@[simp] theorem State.accept_responses : s.accept.responses = s.responses := rfl
@[simp] theorem State.accept_inbox : s.accept.inbox = s.inbox := rfl
@[simp] theorem State.accept_env : s.accept.env = s.env := rfl
@[simp] theorem State.accept_free : s.accept.free = s.free := rfl
end

section
variable (s : State)
@[simp] theorem State.rejectReserved_params : s.rejectReserved.params = s.params := rfl
@[simp] theorem State.rejectReserved_addr : s.rejectReserved.addr = s.addr := rfl
@[simp] theorem State.rejectReserved_wlen : s.rejectReserved.wlen = s.wlen := rfl
@[simp] theorem State.rejectReserved_rlen : s.rejectReserved.rlen = s.rlen := rfl
@[simp] theorem State.rejectReserved_wbuf : s.rejectReserved.wbuf = s.wbuf := rfl
@[simp] theorem State.rejectReserved_rbuf : s.rejectReserved.rbuf = s.rbuf := rfl
@[simp] theorem State.rejectReserved_rcount : s.rejectReserved.rcount = 0 := rfl
@[simp] theorem State.rejectReserved_result : s.rejectReserved.result = .invalidArgument := rfl
@[simp] theorem State.rejectReserved_phase : s.rejectReserved.phase = s.phase := rfl
@[simp] theorem State.rejectReserved_idx : s.rejectReserved.idx = s.idx := rfl
@[simp] theorem State.rejectReserved_waitcnt : s.rejectReserved.waitcnt = s.waitcnt := rfl
@[simp] theorem State.rejectReserved_busy : s.rejectReserved.busy = s.busy := rfl
@[simp] theorem State.rejectReserved_hung : s.rejectReserved.hung = s.hung := rfl
@[simp] theorem State.rejectReserved_ident : s.rejectReserved.ident = s.ident := rfl
@[simp] theorem State.rejectReserved_pstate : s.rejectReserved.pstate = s.pstate := rfl
@[simp] theorem State.rejectReserved_pstep : s.rejectReserved.pstep = s.pstep := rfl
@[simp] theorem State.rejectReserved_pclass : s.rejectReserved.pclass = s.pclass := rfl
@[simp] theorem State.rejectReserved_settle : s.rejectReserved.settle = s.settle := rfl
@[simp] theorem State.rejectReserved_sample : s.rejectReserved.sample = s.sample := rfl
@[simp] theorem State.rejectReserved_sampleValid : s.rejectReserved.sampleValid = s.sampleValid := rfl
@[simp] theorem State.rejectReserved_calibReset : s.rejectReserved.calibReset = s.calibReset := rfl
@[simp] theorem State.rejectReserved_trace : s.rejectReserved.trace = s.trace := rfl
@[simp] theorem State.rejectReserved_responses : s.rejectReserved.responses = s.responses ++ [[1, 0]] := rfl
@[simp] theorem State.rejectReserved_inbox : s.rejectReserved.inbox = s.inbox := rfl
@[simp] theorem State.rejectReserved_env : s.rejectReserved.env = s.env := rfl
@[simp] theorem State.rejectReserved_free : s.rejectReserved.free = s.free := rfl
end

section
variable (s : State)
@[simp] theorem State.invalidateSample_params : s.invalidateSample.params = s.params := rfl
@[simp] theorem State.invalidateSample_addr : s.invalidateSample.addr = s.addr := rfl
@[simp] theorem State.invalidateSample_wlen : s.invalidateSample.wlen = s.wlen := rfl
@[simp] theorem State.invalidateSample_rlen : s.invalidateSample.rlen = s.rlen := rfl
@[simp] theorem State.invalidateSample_wbuf : s.invalidateSample.wbuf = s.wbuf := rfl
@[simp] theorem State.invalidateSample_rbuf : s.invalidateSample.rbuf = s.rbuf := rfl
@[simp] theorem State.invalidateSample_rcount : s.invalidateSample.rcount = s.rcount := rfl
@[simp] theorem State.invalidateSample_result : s.invalidateSample.result = s.result := rfl
@[simp] theorem State.invalidateSample_phase : s.invalidateSample.phase = s.phase := rfl
@[simp] theorem State.invalidateSample_idx : s.invalidateSample.idx = s.idx := rfl
@[simp] theorem State.invalidateSample_waitcnt : s.invalidateSample.waitcnt = s.waitcnt := rfl
@[simp] theorem State.invalidateSample_busy : s.invalidateSample.busy = s.busy := rfl
@[simp] theorem State.invalidateSample_hung : s.invalidateSample.hung = s.hung := rfl
@[simp] theorem State.invalidateSample_ident : s.invalidateSample.ident = s.ident := rfl
@[simp] theorem State.invalidateSample_pstate : s.invalidateSample.pstate = s.pstate := rfl
@[simp] theorem State.invalidateSample_pstep : s.invalidateSample.pstep = s.pstep := rfl
@[simp] theorem State.invalidateSample_pclass : s.invalidateSample.pclass = s.pclass := rfl
@[simp] theorem State.invalidateSample_settle : s.invalidateSample.settle = s.settle := rfl
@[simp] theorem State.invalidateSample_sample : s.invalidateSample.sample = Vector.ofFn fun i => Config.unspecifiedByte (s.free + i.val) := rfl
@[simp] theorem State.invalidateSample_sampleValid : s.invalidateSample.sampleValid = false := rfl
@[simp] theorem State.invalidateSample_calibReset : s.invalidateSample.calibReset = s.calibReset := rfl
@[simp] theorem State.invalidateSample_trace : s.invalidateSample.trace = s.trace := rfl
@[simp] theorem State.invalidateSample_responses : s.invalidateSample.responses = s.responses := rfl
@[simp] theorem State.invalidateSample_inbox : s.invalidateSample.inbox = s.inbox := rfl
@[simp] theorem State.invalidateSample_env : s.invalidateSample.env = s.env := rfl
@[simp] theorem State.invalidateSample_free : s.invalidateSample.free = s.free + 6 := rfl
end

section
variable (s : State)
@[simp] theorem State.beginTick_params : s.beginTick.params = s.params := rfl
@[simp] theorem State.beginTick_addr : s.beginTick.addr = s.addr := rfl
@[simp] theorem State.beginTick_wlen : s.beginTick.wlen = s.wlen := rfl
@[simp] theorem State.beginTick_rlen : s.beginTick.rlen = s.rlen := rfl
@[simp] theorem State.beginTick_wbuf : s.beginTick.wbuf = s.wbuf := rfl
@[simp] theorem State.beginTick_rbuf : s.beginTick.rbuf = s.rbuf := rfl
@[simp] theorem State.beginTick_rcount : s.beginTick.rcount = s.rcount := rfl
@[simp] theorem State.beginTick_result : s.beginTick.result = s.result := rfl
@[simp] theorem State.beginTick_phase : s.beginTick.phase = s.phase := rfl
@[simp] theorem State.beginTick_idx : s.beginTick.idx = s.idx := rfl
@[simp] theorem State.beginTick_waitcnt : s.beginTick.waitcnt = s.waitcnt := rfl
@[simp] theorem State.beginTick_busy : s.beginTick.busy = true := rfl
@[simp] theorem State.beginTick_hung : s.beginTick.hung = s.hung := rfl
@[simp] theorem State.beginTick_ident : s.beginTick.ident = s.ident := rfl
@[simp] theorem State.beginTick_pstate : s.beginTick.pstate = s.pstate := rfl
@[simp] theorem State.beginTick_pstep : s.beginTick.pstep = s.pstep := rfl
@[simp] theorem State.beginTick_pclass : s.beginTick.pclass = s.pclass := rfl
@[simp] theorem State.beginTick_settle : s.beginTick.settle = s.settle := rfl
@[simp] theorem State.beginTick_sample : s.beginTick.sample = Vector.ofFn fun i => Config.unspecifiedByte (s.free + i.val) := rfl
@[simp] theorem State.beginTick_sampleValid : s.beginTick.sampleValid = false := rfl
@[simp] theorem State.beginTick_calibReset : s.beginTick.calibReset = false := rfl
@[simp] theorem State.beginTick_trace : s.beginTick.trace = s.trace := rfl
@[simp] theorem State.beginTick_responses : s.beginTick.responses = s.responses := rfl
@[simp] theorem State.beginTick_inbox : s.beginTick.inbox = s.inbox := rfl
@[simp] theorem State.beginTick_env : s.beginTick.env = s.env := rfl
@[simp] theorem State.beginTick_free : s.beginTick.free = s.free + 6 := rfl
end

section
variable (s : State)
@[simp] theorem State.dropToUninitialized_params : s.dropToUninitialized.params = s.params := rfl
@[simp] theorem State.dropToUninitialized_addr : s.dropToUninitialized.addr = s.addr := rfl
@[simp] theorem State.dropToUninitialized_wlen : s.dropToUninitialized.wlen = s.wlen := rfl
@[simp] theorem State.dropToUninitialized_rlen : s.dropToUninitialized.rlen = s.rlen := rfl
@[simp] theorem State.dropToUninitialized_wbuf : s.dropToUninitialized.wbuf = s.wbuf := rfl
@[simp] theorem State.dropToUninitialized_rbuf : s.dropToUninitialized.rbuf = s.rbuf := rfl
@[simp] theorem State.dropToUninitialized_rcount : s.dropToUninitialized.rcount = s.rcount := rfl
@[simp] theorem State.dropToUninitialized_result : s.dropToUninitialized.result = s.result := rfl
@[simp] theorem State.dropToUninitialized_phase : s.dropToUninitialized.phase = s.phase := rfl
@[simp] theorem State.dropToUninitialized_idx : s.dropToUninitialized.idx = s.idx := rfl
@[simp] theorem State.dropToUninitialized_waitcnt : s.dropToUninitialized.waitcnt = s.waitcnt := rfl
@[simp] theorem State.dropToUninitialized_busy : s.dropToUninitialized.busy = s.busy := rfl
@[simp] theorem State.dropToUninitialized_hung : s.dropToUninitialized.hung = s.hung := rfl
@[simp] theorem State.dropToUninitialized_ident : s.dropToUninitialized.ident = 0 := rfl
@[simp] theorem State.dropToUninitialized_pstate : s.dropToUninitialized.pstate = .uninitialized := rfl
@[simp] theorem State.dropToUninitialized_pstep : s.dropToUninitialized.pstep = s.pstep := rfl
@[simp] theorem State.dropToUninitialized_pclass : s.dropToUninitialized.pclass = .none := rfl
@[simp] theorem State.dropToUninitialized_settle : s.dropToUninitialized.settle = s.params.settleTicks := rfl
@[simp] theorem State.dropToUninitialized_sample : s.dropToUninitialized.sample = Vector.ofFn fun i => Config.unspecifiedByte (s.free + i.val) := rfl
@[simp] theorem State.dropToUninitialized_sampleValid : s.dropToUninitialized.sampleValid = false := rfl
@[simp] theorem State.dropToUninitialized_calibReset : s.dropToUninitialized.calibReset = true := rfl
@[simp] theorem State.dropToUninitialized_trace : s.dropToUninitialized.trace = s.trace := rfl
@[simp] theorem State.dropToUninitialized_responses : s.dropToUninitialized.responses = s.responses := rfl
@[simp] theorem State.dropToUninitialized_inbox : s.dropToUninitialized.inbox = s.inbox := rfl
@[simp] theorem State.dropToUninitialized_env : s.dropToUninitialized.env = s.env := rfl
@[simp] theorem State.dropToUninitialized_free : s.dropToUninitialized.free = s.free + 6 := rfl
end

section
variable (s : State)
@[simp] theorem State.startEnv0_params : s.startEnv0.params = s.params := rfl
@[simp] theorem State.startEnv0_addr : s.startEnv0.addr = s.addr := rfl
@[simp] theorem State.startEnv0_wlen : s.startEnv0.wlen = s.wlen := rfl
@[simp] theorem State.startEnv0_rlen : s.startEnv0.rlen = s.rlen := rfl
@[simp] theorem State.startEnv0_wbuf : s.startEnv0.wbuf = s.wbuf := rfl
@[simp] theorem State.startEnv0_rbuf : s.startEnv0.rbuf = s.rbuf := rfl
@[simp] theorem State.startEnv0_rcount : s.startEnv0.rcount = s.rcount := rfl
@[simp] theorem State.startEnv0_result : s.startEnv0.result = s.result := rfl
@[simp] theorem State.startEnv0_phase : s.startEnv0.phase = s.phase := rfl
@[simp] theorem State.startEnv0_idx : s.startEnv0.idx = s.idx := rfl
@[simp] theorem State.startEnv0_waitcnt : s.startEnv0.waitcnt = s.waitcnt := rfl
@[simp] theorem State.startEnv0_busy : s.startEnv0.busy = s.busy := rfl
@[simp] theorem State.startEnv0_hung : s.startEnv0.hung = s.hung := rfl
@[simp] theorem State.startEnv0_ident : s.startEnv0.ident = s.ident := rfl
@[simp] theorem State.startEnv0_pstate : s.startEnv0.pstate = s.pstate := rfl
@[simp] theorem State.startEnv0_pstep : s.startEnv0.pstep = s.pstep := rfl
@[simp] theorem State.startEnv0_pclass : s.startEnv0.pclass = s.pclass := rfl
@[simp] theorem State.startEnv0_settle : s.startEnv0.settle = s.settle := rfl
@[simp] theorem State.startEnv0_sample : s.startEnv0.sample = s.sample := rfl
@[simp] theorem State.startEnv0_sampleValid : s.startEnv0.sampleValid = s.sampleValid := rfl
@[simp] theorem State.startEnv0_calibReset : s.startEnv0.calibReset = s.calibReset := rfl
@[simp] theorem State.startEnv0_trace : s.startEnv0.trace = s.trace := rfl
@[simp] theorem State.startEnv0_responses : s.startEnv0.responses = s.responses := rfl
@[simp] theorem State.startEnv0_inbox : s.startEnv0.inbox = s.inbox := rfl
@[simp] theorem State.startEnv0_env : s.startEnv0.env = { s.env with ref := s.env.ref.map (Env0.powerUp s.free) } := rfl
@[simp] theorem State.startEnv0_free : s.startEnv0.free = s.free + ((s.env.ref.map fun e => e.peripherals.length).getD 0) := rfl
end

section
variable (s : State) (b : Byte)
@[simp] theorem State.storeReceived_params : (s.storeReceived b).params = s.params := rfl
@[simp] theorem State.storeReceived_addr : (s.storeReceived b).addr = s.addr := rfl
@[simp] theorem State.storeReceived_wlen : (s.storeReceived b).wlen = s.wlen := rfl
@[simp] theorem State.storeReceived_rlen : (s.storeReceived b).rlen = s.rlen := rfl
@[simp] theorem State.storeReceived_wbuf : (s.storeReceived b).wbuf = s.wbuf := rfl
@[simp] theorem State.storeReceived_rbuf : (s.storeReceived b).rbuf = s.rbuf.setIfInBounds s.idx.toNat b := rfl
@[simp] theorem State.storeReceived_rcount : (s.storeReceived b).rcount = s.rcount + 1 := rfl
@[simp] theorem State.storeReceived_result : (s.storeReceived b).result = s.result := rfl
@[simp] theorem State.storeReceived_phase : (s.storeReceived b).phase = s.phase := rfl
@[simp] theorem State.storeReceived_idx : (s.storeReceived b).idx = s.idx + 1 := rfl
@[simp] theorem State.storeReceived_waitcnt : (s.storeReceived b).waitcnt = s.waitcnt := rfl
@[simp] theorem State.storeReceived_busy : (s.storeReceived b).busy = s.busy := rfl
@[simp] theorem State.storeReceived_hung : (s.storeReceived b).hung = s.hung := rfl
@[simp] theorem State.storeReceived_ident : (s.storeReceived b).ident = s.ident := rfl
@[simp] theorem State.storeReceived_pstate : (s.storeReceived b).pstate = s.pstate := rfl
@[simp] theorem State.storeReceived_pstep : (s.storeReceived b).pstep = s.pstep := rfl
@[simp] theorem State.storeReceived_pclass : (s.storeReceived b).pclass = s.pclass := rfl
@[simp] theorem State.storeReceived_settle : (s.storeReceived b).settle = s.settle := rfl
@[simp] theorem State.storeReceived_sample : (s.storeReceived b).sample = s.sample := rfl
@[simp] theorem State.storeReceived_sampleValid : (s.storeReceived b).sampleValid = s.sampleValid := rfl
@[simp] theorem State.storeReceived_calibReset : (s.storeReceived b).calibReset = s.calibReset := rfl
@[simp] theorem State.storeReceived_trace : (s.storeReceived b).trace = s.trace := rfl
@[simp] theorem State.storeReceived_responses : (s.storeReceived b).responses = s.responses := rfl
@[simp] theorem State.storeReceived_inbox : (s.storeReceived b).inbox = s.inbox := rfl
@[simp] theorem State.storeReceived_env : (s.storeReceived b).env = s.env := rfl
@[simp] theorem State.storeReceived_free : (s.storeReceived b).free = s.free := rfl
end

section
variable (s : State) (a : BusAddr) (p : List Byte) (n : Byte)
@[simp] theorem State.beginTransaction_params : (s.beginTransaction a p n).params = s.params := by
  unfold State.beginTransaction; split <;> [split; skip] <;> rfl
@[simp] theorem State.beginTransaction_addr : (s.beginTransaction a p n).addr = a := by
  unfold State.beginTransaction; split <;> [split; skip] <;> rfl
@[simp] theorem State.beginTransaction_wlen : (s.beginTransaction a p n).wlen = BitVec.ofNat 8 p.length := by
  unfold State.beginTransaction; split <;> [split; skip] <;> rfl
@[simp] theorem State.beginTransaction_rlen : (s.beginTransaction a p n).rlen = n := by
  unfold State.beginTransaction; split <;> [split; skip] <;> rfl
@[simp] theorem State.beginTransaction_wbuf : (s.beginTransaction a p n).wbuf = loadBuffer s.wbuf p := by
  unfold State.beginTransaction; split <;> [split; skip] <;> rfl
@[simp] theorem State.beginTransaction_rbuf : (s.beginTransaction a p n).rbuf = s.rbuf := by
  unfold State.beginTransaction; split <;> [split; skip] <;> rfl
@[simp] theorem State.beginTransaction_rcount : (s.beginTransaction a p n).rcount = 0 := by
  unfold State.beginTransaction; split <;> [split; skip] <;> rfl
@[simp] theorem State.beginTransaction_idx : (s.beginTransaction a p n).idx = 0 := by
  unfold State.beginTransaction; split <;> [split; skip] <;> rfl
@[simp] theorem State.beginTransaction_waitcnt : (s.beginTransaction a p n).waitcnt = 0 := by
  unfold State.beginTransaction; split <;> [split; skip] <;> rfl
@[simp] theorem State.beginTransaction_busy : (s.beginTransaction a p n).busy = s.busy := by
  unfold State.beginTransaction; split <;> [split; skip] <;> rfl
@[simp] theorem State.beginTransaction_hung : (s.beginTransaction a p n).hung = s.hung := by
  unfold State.beginTransaction; split <;> [split; skip] <;> rfl
@[simp] theorem State.beginTransaction_ident : (s.beginTransaction a p n).ident = s.ident := by
  unfold State.beginTransaction; split <;> [split; skip] <;> rfl
@[simp] theorem State.beginTransaction_pstate : (s.beginTransaction a p n).pstate = s.pstate := by
  unfold State.beginTransaction; split <;> [split; skip] <;> rfl
@[simp] theorem State.beginTransaction_pstep : (s.beginTransaction a p n).pstep = s.pstep := by
  unfold State.beginTransaction; split <;> [split; skip] <;> rfl
@[simp] theorem State.beginTransaction_pclass : (s.beginTransaction a p n).pclass = s.pclass := by
  unfold State.beginTransaction; split <;> [split; skip] <;> rfl
@[simp] theorem State.beginTransaction_settle : (s.beginTransaction a p n).settle = s.settle := by
  unfold State.beginTransaction; split <;> [split; skip] <;> rfl
@[simp] theorem State.beginTransaction_sample : (s.beginTransaction a p n).sample = s.sample := by
  unfold State.beginTransaction; split <;> [split; skip] <;> rfl
@[simp] theorem State.beginTransaction_sampleValid : (s.beginTransaction a p n).sampleValid = s.sampleValid := by
  unfold State.beginTransaction; split <;> [split; skip] <;> rfl
@[simp] theorem State.beginTransaction_calibReset : (s.beginTransaction a p n).calibReset = s.calibReset := by
  unfold State.beginTransaction; split <;> [split; skip] <;> rfl
@[simp] theorem State.beginTransaction_trace : (s.beginTransaction a p n).trace = s.trace := by
  unfold State.beginTransaction; split <;> [split; skip] <;> rfl
@[simp] theorem State.beginTransaction_responses : (s.beginTransaction a p n).responses = s.responses := by
  unfold State.beginTransaction; split <;> [split; skip] <;> rfl
@[simp] theorem State.beginTransaction_inbox : (s.beginTransaction a p n).inbox = s.inbox := by
  unfold State.beginTransaction; split <;> [split; skip] <;> rfl
@[simp] theorem State.beginTransaction_env : (s.beginTransaction a p n).env = s.env := by
  unfold State.beginTransaction; split <;> [split; skip] <;> rfl
@[simp] theorem State.beginTransaction_free : (s.beginTransaction a p n).free = s.free := by
  unfold State.beginTransaction; split <;> [split; skip] <;> rfl
@[simp] theorem State.beginTransaction_result :
    (s.beginTransaction a p n).result = if p = [] ∧ n = 0 then .invalidArgument else .ok := by
  rcases p with _ | ⟨_, _⟩ <;> by_cases h : n = 0#8 <;> simp [State.beginTransaction, h]
@[simp] theorem State.beginTransaction_phase :
    (s.beginTransaction a p n).phase = if p = [] then (if n = 0 then s.phase else .rStart) else .wStart := by
  rcases p with _ | ⟨_, _⟩ <;> by_cases h : n = 0#8 <;> simp [State.beginTransaction, h]
end

section
variable (s : State)
@[simp] theorem activate_params : (activate s).params = s.params := rfl
@[simp] theorem activate_addr : (activate s).addr = s.addr := rfl
@[simp] theorem activate_wlen : (activate s).wlen = s.wlen := rfl
@[simp] theorem activate_rlen : (activate s).rlen = s.rlen := rfl
@[simp] theorem activate_wbuf : (activate s).wbuf = s.wbuf := rfl
@[simp] theorem activate_rbuf : (activate s).rbuf = s.rbuf := rfl
@[simp] theorem activate_rcount : (activate s).rcount = s.rcount := rfl
@[simp] theorem activate_result : (activate s).result = s.result := rfl
@[simp] theorem activate_phase : (activate s).phase = s.phase := rfl
@[simp] theorem activate_idx : (activate s).idx = s.idx := rfl
@[simp] theorem activate_waitcnt : (activate s).waitcnt = s.waitcnt := rfl
@[simp] theorem activate_busy : (activate s).busy = s.busy := rfl
@[simp] theorem activate_hung : (activate s).hung = s.hung := rfl
@[simp] theorem activate_ident : (activate s).ident = s.ident := rfl
@[simp] theorem activate_pstate : (activate s).pstate = .active := rfl
@[simp] theorem activate_pstep : (activate s).pstep = s.pstep := rfl
@[simp] theorem activate_pclass : (activate s).pclass = s.pclass := rfl
@[simp] theorem activate_settle : (activate s).settle = s.settle := rfl
@[simp] theorem activate_sample : (activate s).sample = s.sample := rfl
@[simp] theorem activate_sampleValid : (activate s).sampleValid = s.sampleValid := rfl
@[simp] theorem activate_calibReset : (activate s).calibReset = true := rfl
@[simp] theorem activate_trace : (activate s).trace = s.trace := rfl
@[simp] theorem activate_responses : (activate s).responses = s.responses := rfl
@[simp] theorem activate_inbox : (activate s).inbox = s.inbox := rfl
@[simp] theorem activate_env : (activate s).env = s.env := rfl
@[simp] theorem activate_free : (activate s).free = s.free := rfl
end

section
variable (s : State) (a : BusAddr) (r n : Byte)
@[simp] theorem State.beginRead_params : (s.beginRead a r n).params = s.params := by
  unfold State.beginRead; split <;> simp
@[simp] theorem State.beginRead_addr : (s.beginRead a r n).addr = a := by
  unfold State.beginRead; split <;> simp
@[simp] theorem State.beginRead_wlen : (s.beginRead a r n).wlen = 1 := by
  unfold State.beginRead; split <;> simp
@[simp] theorem State.beginRead_wbuf : (s.beginRead a r n).wbuf = loadBuffer s.wbuf [r] := by
  unfold State.beginRead; split <;> simp
@[simp] theorem State.beginRead_rbuf : (s.beginRead a r n).rbuf = s.rbuf := by
  unfold State.beginRead; split <;> simp
@[simp] theorem State.beginRead_rcount : (s.beginRead a r n).rcount = 0 := by
  unfold State.beginRead; split <;> simp
@[simp] theorem State.beginRead_result : (s.beginRead a r n).result = .ok := by
  unfold State.beginRead; split <;> simp
@[simp] theorem State.beginRead_phase : (s.beginRead a r n).phase = .wStart := by
  unfold State.beginRead; split <;> simp
@[simp] theorem State.beginRead_idx : (s.beginRead a r n).idx = 0 := by
  unfold State.beginRead; split <;> simp
@[simp] theorem State.beginRead_waitcnt : (s.beginRead a r n).waitcnt = 0 := by
  unfold State.beginRead; split <;> simp
@[simp] theorem State.beginRead_busy : (s.beginRead a r n).busy = s.busy := by
  unfold State.beginRead; split <;> simp
@[simp] theorem State.beginRead_hung : (s.beginRead a r n).hung = s.hung := by
  unfold State.beginRead; split <;> simp
@[simp] theorem State.beginRead_ident : (s.beginRead a r n).ident = s.ident := by
  unfold State.beginRead; split <;> simp
@[simp] theorem State.beginRead_pstate : (s.beginRead a r n).pstate = s.pstate := by
  unfold State.beginRead; split <;> simp
@[simp] theorem State.beginRead_pstep : (s.beginRead a r n).pstep = s.pstep := by
  unfold State.beginRead; split <;> simp
@[simp] theorem State.beginRead_pclass : (s.beginRead a r n).pclass = s.pclass := by
  unfold State.beginRead; split <;> simp
@[simp] theorem State.beginRead_settle : (s.beginRead a r n).settle = s.settle := by
  unfold State.beginRead; split <;> simp
@[simp] theorem State.beginRead_sample : (s.beginRead a r n).sample = s.sample := by
  unfold State.beginRead; split <;> simp
@[simp] theorem State.beginRead_sampleValid : (s.beginRead a r n).sampleValid = s.sampleValid := by
  unfold State.beginRead; split <;> simp
@[simp] theorem State.beginRead_calibReset : (s.beginRead a r n).calibReset = s.calibReset := by
  unfold State.beginRead; split <;> simp
@[simp] theorem State.beginRead_trace : (s.beginRead a r n).trace = s.trace := by
  unfold State.beginRead; split <;> simp
@[simp] theorem State.beginRead_responses : (s.beginRead a r n).responses = s.responses := by
  unfold State.beginRead; split <;> simp
@[simp] theorem State.beginRead_inbox : (s.beginRead a r n).inbox = s.inbox := by
  unfold State.beginRead; split <;> simp
@[simp] theorem State.beginRead_env : (s.beginRead a r n).env = s.env := by
  unfold State.beginRead; split <;> simp
@[simp] theorem State.beginRead_free : (s.beginRead a r n).free = s.free := by
  unfold State.beginRead; split <;> simp
@[simp] theorem State.beginRead_rlen :
    (s.beginRead a r n).rlen = if s.params.regReadMode = .combined then n else 0 := by
  unfold State.beginRead; split <;> simp [*]
end

/-! ## The small lemmas of the terms of Safety.lean about the sequencer -/

theorem State.tickBegins_beginTick (s : State) : s.TickBegins s.beginTick := rfl

@[simp] theorem State.InitRuns_nil (s : State) (b : Bool) (t : State) :
    s.InitRuns [] b t ↔ b = true ∧ t = { s with
      ident := identOf s.received
      pclass := classifyIdent s.params (identOf s.received)
      pstep := .idle } := Iff.rfl

/-- One operation of `INIT` and what follows it, the operation's outcome given. -/
theorem State.InitRuns_cons {s u : State} {e : Piece} {more : List Piece} {b : Bool} {t : State}
    (h : exec e.instr { s with pstep := e.pstep } = .next u) :
    s.InitRuns (e :: more) b t ↔
      (u.hung = true → b = false ∧ t = u) ∧
        (u.hung = false → u.result ∉ e.goesOn → b = false ∧ t = { u with pstep := .idle }) ∧
        (u.hung = false → u.result ∈ e.goesOn → u.InitRuns more b t) := by
  refine ⟨?_, fun k => ⟨u, h, k⟩⟩
  rintro ⟨v, hv, k⟩
  obtain rfl : u = v := by simpa [h] using hv
  exact k

@[simp] theorem readTokens_combined (l : List PassingStep) :
    readTokens .combined l = passingTokens l ++ [stopToken] := rfl

@[simp] theorem readTokens_split (l : List PassingStep) :
    readTokens .split l =
      passingTokens (l.take 3) ++ [stopToken] ++ passingTokens (l.drop 3) ++ [stopToken] := rfl

end Sys2Proof.Machine
end

