-- ==== Sys2Proof/Laws/Bus.lean ====
section
/-! SUPPORT. What one bus step can do: the ready wait, the classification, `raise`, and the shape of a waiting step. -/

namespace Sys2Proof.Machine

open Config

theorem replyOf_ne_noAnswer (l : WaitLimit) (a : Answer) : replyOf l a ≠ .noAnswer := by
  rcases l with _ | ⟨n, _⟩ <;> rcases h : a.w with m | _ <;> simp only [replyOf, h, ne_eq, reduceCtorEq,
    not_false_eq_true]
  split <;> simp

theorem replyOf_never {l : WaitLimit} {a : Answer} : replyOf l a = .never ↔ l = .inf ∧ a.w = .never := by
  rcases l with _ | ⟨n, _⟩ <;> rcases h : a.w with m | _ <;> simp only [replyOf, h, reduceCtorEq, and_self, and_false,
    false_and]
  split <;> simp

theorem State.replyTo_ne_noAnswer (s : State) (k : StepKind) (d : Byte) : s.replyTo k d ≠ .noAnswer :=
  replyOf_ne_noAnswer _ _

/-- A hang needs `WAIT_LIMIT = INF` (60_exceptions.md R183). -/
theorem State.replyTo_never {s : State} {k : StepKind} {d : Byte} (h : s.replyTo k d = .never) :
    s.params.waitLimit = .inf := (replyOf_never.mp h).1

theorem nackOf_cases (k : StepKind) (st : Byte) :
    nackOf k st = none ∨ nackOf k st = some .addressNack ∨ nackOf k st = some .dataNack := by
  cases k <;> simp only [nackOf] <;> first | exact .inl trivial | (split <;> simp)

theorem classifyStatus_some {k : StepKind} {st : Byte} {c : Result} (h : classifyStatus k st = some c) :
    c ≠ .ok ∧ c ≠ .invalidArgument := by
  unfold classifyStatus at h
  split at h
  · cases h
  · split at h
    · cases h; simp
    · rcases nackOf_cases k st with e | e | e <;> rw [e] at h <;> cases h <;> simp

theorem recoveryPhase_eq (c : Result) :
    (c = .arbitrationLost ∧ recoveryPhase c = .rearming) ∨ (c ≠ .arbitrationLost ∧ recoveryPhase c = .stopping) := by
  unfold recoveryPhase; by_cases h : c = .arbitrationLost <;> simp [h]

/-- A waiting step of a block that does not hang passes, raises, or hangs. -/
theorem waitingStep_cases (s : State) (k : StepKind) (d : Byte) (f : Byte → State → State) (h : s.hung = false) :
    (∃ n st rx, s.replyTo k d = .ready n st rx ∧ classifyStatus k st = none ∧
        (s.busWait k d).hung = false ∧ s.waitingStep k d f = f rx (s.busWait k d)) ∨
      (∃ c, c ≠ .ok ∧ c ≠ .invalidArgument ∧ (s.busWait k d).hung = false ∧
        (s.replyTo k d = .notReady ∧ c = .timeout ∨
          ∃ n st rx, s.replyTo k d = .ready n st rx ∧ classifyStatus k st = some c) ∧
        s.waitingStep k d f = (s.busWait k d).raise c) ∨
      (s.replyTo k d = .never ∧ s.params.waitLimit = .inf ∧ (s.busWait k d).hung = true ∧
        s.waitingStep k d f = s.busWait k d) := by
  unfold State.waitingStep
  simp only [h, Bool.false_eq_true, ↓reduceIte, State.busWait_hung, Bool.false_or]
  rcases hr : s.replyTo k d with _ | ⟨n, st, rx⟩ | _ | _
  · exact absurd hr (State.replyTo_ne_noAnswer s k d)
  · rcases hc : classifyStatus k st with _ | c
    · exact .inl ⟨n, st, rx, rfl, hc, by simp, by simp [hc]⟩
    · exact .inr (.inl ⟨c, (classifyStatus_some hc).1, (classifyStatus_some hc).2, by simp,
        .inr ⟨n, st, rx, rfl, hc⟩, by simp [hc]⟩)
  · exact .inr (.inl ⟨.timeout, by simp, by simp, by simp, .inl ⟨rfl, rfl⟩, by simp⟩)
  · exact .inr (.inr ⟨rfl, State.replyTo_never hr, by simp, by simp⟩)

theorem waitingStep_hung (s : State) (k : StepKind) (d : Byte) (f : Byte → State → State) (h : s.hung = true) :
    s.waitingStep k d f = s := by simp [State.waitingStep, h]

/-- A property of the state that `BusStep`, `raise` and the effect of `PASS` keep is kept by a waiting step. -/
theorem waitingStep_keeps {α : Type} (g : State → α) {s : State} {k : StepKind} {d : Byte}
    {f : Byte → State → State} (hw : g (s.busWait k d) = g s) (hr : ∀ t c, g (State.raise t c) = g t)
    (hf : ∀ rx t, g (f rx t) = g t) : g (s.waitingStep k d f) = g s := by
  rcases hh : s.hung with _ | _
  · rcases waitingStep_cases s k d f hh with ⟨_, _, rx, _, _, _, e⟩ | ⟨c, _, _, _, _, e⟩ | ⟨_, _, _, e⟩
    · rw [e, hf, hw]
    · rw [e, hr, hw]
    · rw [e, hw]
  · rw [waitingStep_hung _ _ _ _ hh]

/-- A scripted answer is what the block sees, whatever the environment is otherwise. -/
theorem State.draw_scripted {s : State} {n : Nat} {st rx : Byte} (k : StepKind) (d : Byte)
    (h : s.NextAnswer n st rx) :
    (s.env.draw s.params s.free k d).2 = { w := .polls n, status := st, rx := rx } ∧
      (s.env.draw s.params s.free k d).1.script = s.env.script.tail := by
  unfold State.NextAnswer at h
  rcases hs : s.env.script with _ | ⟨o, l⟩
  · simp [hs] at h
  · simp only [hs, List.head?_cons, Option.some.injEq] at h
    subst h
    rcases hr : s.env.ref with _ | r <;>
      simp [Environment.draw, hr, Environment.scripted, hs, Override.apply, answered]

theorem State.replyTo_scripted {s : State} {n : Nat} {st rx : Byte} (k : StepKind) (d : Byte)
    (h : s.NextAnswer n st rx) (ha : allows s.params.waitLimit n = true) : s.replyTo k d = .ready n st rx := by
  unfold State.replyTo
  rw [(State.draw_scripted k d h).1]
  rcases hl : s.params.waitLimit with _ | ⟨l, _⟩
  · rfl
  · have hn : n < l := by simpa [allows, hl] using ha
    simp [replyOf, Nat.not_le.mpr hn]

@[simp] theorem releaseStep_hung_eq (s : State) (k : StepKind) : (s.releaseStep k).hung = s.hung := by
  unfold State.releaseStep; split <;> simp

theorem releaseStep_keeps {α : Type} (g : State → α) {s : State} {k : StepKind}
    (hw : ∀ p, g { s.busRelease k with phase := p } = g s) : g (s.releaseStep k) = g s := by
  unfold State.releaseStep; split
  · rfl
  · exact hw _

end Sys2Proof.Machine
end

