-- ==== Sys2Proof/Laws/Engine.lean ====
section
/-! SUPPORT. The engine: what every bus step keeps a transaction keeps, and a transaction comes to its end. -/

namespace Sys2Proof.Machine

open Config

/-- What every issued bus step keeps is kept by the engine. -/
theorem engine_induct {P : State → Prop} (hstep : ∀ s, P s → s.hung = false → s.phase ≠ .idle → P (issue s)) :
    ∀ (n : Nat) (s : State), P s → P (engine n s)
  | 0, _, h => h
  | n + 1, s, h => by
    unfold engine
    split
    · exact h
    · rename_i hc
      simp only [Bool.or_eq_true, beq_iff_eq, not_or, Bool.not_eq_true] at hc
      exact engine_induct hstep n _ (hstep s h hc.1 hc.2)

theorem engine_keeps {α : Type} (g : State → α) (hstep : ∀ s, g (issue s) = g s) (n : Nat) (s : State) :
    g (engine n s) = g s :=
  engine_induct (P := fun t => g t = g s) (fun t ht _ _ => (hstep t).trans ht) n s rfl

/-- What `BusStep`, `raise`, the move of `phase` and `idx`, and the storing of a byte keep is kept by every bus step
the engine issues. -/
theorem issue_keeps {α : Type} (g : State → α) (hw : ∀ s k d, g (State.busWait s k d) = g s)
    (hrel : ∀ s k, g (State.busRelease s k) = g s) (hr : ∀ s c, g (State.raise s c) = g s)
    (hp : ∀ s : State, ∀ p i, g { s with phase := p, idx := i } = g s)
    (hst : ∀ s : State, ∀ rx, g (s.storeReceived rx) = g s) (s : State) : g (issue s) = g s := by
  have hp' : ∀ (t : State) p, g { t with phase := p } = g t := fun t p => hp t p t.idx
  have hw1 : ∀ t, g (busStart t) = g t := fun t => waitingStep_keeps g (hw ..) hr (fun rx u => by
    split <;> exact hp' ..)
  have hw2 : ∀ t, g (busRstart t) = g t := fun t => waitingStep_keeps g (hw ..) hr (fun rx u => hp' ..)
  have hw3 : ∀ t, g (busRxa t) = g t := fun t => waitingStep_keeps g (hw ..) hr
    (fun rx u => (hp' (u.storeReceived rx) _).trans (hst ..))
  have hw4 : ∀ t, g (busRxn t) = g t := fun t => waitingStep_keeps g (hw ..) hr
    (fun rx u => (hp' (u.storeReceived rx) _).trans (hst ..))
  unfold issue
  split
  · rfl
  · exact hw1 s
  · exact waitingStep_keeps g (hw ..) hr (fun rx t => hp ..)
  · exact waitingStep_keeps g (hw ..) hr (fun rx t => hp ..)
  · split
    · exact hw1 s
    · exact hw2 s
  · exact waitingStep_keeps g (hw ..) hr (fun rx t => hp ..)
  · split
    · exact hw3 s
    · exact hw4 s
  · exact releaseStep_keeps g (fun p => (hp' (s.busRelease .stop) p).trans (hrel ..))
  · exact releaseStep_keeps g (fun p => (hp' (s.busRelease .rearm) p).trans (hrel ..))

theorem engine_succ {n : Nat} {s : State} (h : s.hung = false) (hp : s.phase ≠ .idle) :
    engine (n + 1) s = engine n (issue s) := by simp [engine, h, hp]

theorem engine_idle {n : Nat} {s : State} (hp : s.phase = .idle) : engine n s = s := by
  cases n <;> simp [engine, hp]

theorem engine_hung {n : Nat} {s : State} (hp : s.hung = true) : engine n s = s := by
  cases n <;> simp [engine, hp]

theorem received_length (s : State) : s.received.length = s.rcount.toNat := by
  have := s.rcount.isLt
  simp [State.received]; omega

/-- The payload is in the buffer after the start of a transaction. -/
theorem loadBuffer_take {n : Nat} (old : Vector Byte n) (bs : List Byte) (h : bs.length ≤ n) :
    (loadBuffer old bs).toList.take bs.length = bs := by
  simp [loadBuffer, Vector.toList, List.take_take, h]

theorem toNat_add_one {b : Byte} (h : b.toNat < 255) : (b + 1).toNat = b.toNat + 1 := by
  rw [BitVec.toNat_add]; simp; omega

/-- A received byte is added at the end of the bytes received (40_bus_steps.md R97, R101). -/
theorem received_store {s : State} (rx : Byte) (hi : s.idx = s.rcount) (hl : s.rcount.toNat < 255) :
    (s.storeReceived rx).received = s.received ++ [rx] := by
  have e := toNat_add_one hl
  simp only [State.received, State.storeReceived_rbuf, State.storeReceived_rcount, e, hi]
  rw [List.take_add_one, Vector.toList_setIfInBounds, List.take_set_of_le (by simp)]
  simp [hl]

/-- A transaction keeps what its bus steps keep and what its start keeps. -/
theorem transact_keeps {α : Type} (g : State → α) (hw : ∀ s k d, g (State.busWait s k d) = g s)
    (hrel : ∀ s k, g (State.busRelease s k) = g s) (hr : ∀ s c, g (State.raise s c) = g s)
    (hp : ∀ s : State, ∀ p i, g { s with phase := p, idx := i } = g s)
    (hst : ∀ s : State, ∀ rx, g (s.storeReceived rx) = g s)
    (hb : ∀ s a p n, g (State.beginTransaction s a p n) = g s) (a : BusAddr) (p : List Byte) (n : Byte) (s : State) :
    g (transact a p n s) = g s := by
  unfold transact
  split
  · rfl
  · split
    · exact hb ..
    rw [engine_keeps g (issue_keeps g hw hrel hr hp hst), hb]

/-! The frame of a transaction, field by field. -/

@[simp] theorem transact_params (a : BusAddr) (p : List Byte) (n : Byte) (s : State) :
    (transact a p n s).params = s.params :=
  transact_keeps State.params (by simp) (by simp) (by simp) (by simp) (by simp) (by simp) ..

@[simp] theorem transact_inbox (a : BusAddr) (p : List Byte) (n : Byte) (s : State) :
    (transact a p n s).inbox = s.inbox :=
  transact_keeps State.inbox (by simp) (by simp) (by simp) (by simp) (by simp) (by simp) ..

@[simp] theorem transact_responses (a : BusAddr) (p : List Byte) (n : Byte) (s : State) :
    (transact a p n s).responses = s.responses :=
  transact_keeps State.responses (by simp) (by simp) (by simp) (by simp) (by simp) (by simp) ..

@[simp] theorem transact_busy (a : BusAddr) (p : List Byte) (n : Byte) (s : State) :
    (transact a p n s).busy = s.busy :=
  transact_keeps State.busy (by simp) (by simp) (by simp) (by simp) (by simp) (by simp) ..

@[simp] theorem transact_ident (a : BusAddr) (p : List Byte) (n : Byte) (s : State) :
    (transact a p n s).ident = s.ident :=
  transact_keeps State.ident (by simp) (by simp) (by simp) (by simp) (by simp) (by simp) ..

@[simp] theorem transact_pstate (a : BusAddr) (p : List Byte) (n : Byte) (s : State) :
    (transact a p n s).pstate = s.pstate :=
  transact_keeps State.pstate (by simp) (by simp) (by simp) (by simp) (by simp) (by simp) ..

@[simp] theorem transact_pstep (a : BusAddr) (p : List Byte) (n : Byte) (s : State) :
    (transact a p n s).pstep = s.pstep :=
  transact_keeps State.pstep (by simp) (by simp) (by simp) (by simp) (by simp) (by simp) ..

@[simp] theorem transact_pclass (a : BusAddr) (p : List Byte) (n : Byte) (s : State) :
    (transact a p n s).pclass = s.pclass :=
  transact_keeps State.pclass (by simp) (by simp) (by simp) (by simp) (by simp) (by simp) ..

@[simp] theorem transact_settle (a : BusAddr) (p : List Byte) (n : Byte) (s : State) :
    (transact a p n s).settle = s.settle :=
  transact_keeps State.settle (by simp) (by simp) (by simp) (by simp) (by simp) (by simp) ..

@[simp] theorem transact_sample (a : BusAddr) (p : List Byte) (n : Byte) (s : State) :
    (transact a p n s).sample = s.sample :=
  transact_keeps State.sample (by simp) (by simp) (by simp) (by simp) (by simp) (by simp) ..

@[simp] theorem transact_sampleValid (a : BusAddr) (p : List Byte) (n : Byte) (s : State) :
    (transact a p n s).sampleValid = s.sampleValid :=
  transact_keeps State.sampleValid (by simp) (by simp) (by simp) (by simp) (by simp) (by simp) ..

@[simp] theorem transact_calibReset (a : BusAddr) (p : List Byte) (n : Byte) (s : State) :
    (transact a p n s).calibReset = s.calibReset :=
  transact_keeps State.calibReset (by simp) (by simp) (by simp) (by simp) (by simp) (by simp) ..

theorem transact_hung (a : BusAddr) (p : List Byte) (n : Byte) (s : State) (h : s.hung = true) :
    transact a p n s = s := by simp [transact, h]

end Sys2Proof.Machine
end

