-- ==== Sys2Proof/Laws/Memory.lean ====
section
/-! SUPPORT. The register memory of the peripherals: read after write, and the canonical form, which every operation of
the reference environment and every bus step keeps. -/

namespace Sys2Proof.Machine

open Config

/-- Every register of a canonical memory lies at or above the first one. -/
theorem Memory.read_below {m : Memory} {a : Nat} (h : ∀ c ∈ m, a < c.1) : Memory.read m a = Memory.unlisted := by
  induction m with
  | nil => rfl
  | cons c m ih =>
    have h1 := h c (by simp)
    simp only [Memory.read, if_neg (by omega : ¬c.1 = a)]
    exact ih fun d hd => h d (by simp [hd])

theorem Memory.wf_tail {c : Host.Cell} {m : Memory} (h : Memory.wf (c :: m)) : Memory.wf m :=
  ⟨(List.pairwise_cons.mp h.1).2, fun d hd => h.2 d (by simp [hd])⟩

theorem Memory.read_write_same {m : Memory} (a : Nat) (v : Byte) (h : m.wf) : (m.write a v).read a = v := by
  induction m with
  | nil => by_cases hv : v = Memory.unlisted <;> simp [Memory.write, Memory.read, hv]
  | cons c m ih =>
    have hp := (List.pairwise_cons.mp h.1).1
    simp only [Memory.write]
    split
    · rename_i hlt
      split
      · rename_i hv
        rw [hv]
        exact Memory.read_below fun d hd => by
          rcases List.mem_cons.mp hd with rfl | hd
          · exact hlt
          · exact Nat.lt_trans hlt (hp d hd)
      · simp [Memory.read]
    · split
      · rename_i he
        split
        · rename_i hv
          rw [hv]
          exact Memory.read_below fun d hd => he ▸ hp d hd
        · simp [Memory.read]
      · rename_i hne
        simpa [Memory.read, Ne.symm hne] using ih (Memory.wf_tail h)

theorem Memory.read_write_ne {m : Memory} {a b : Nat} (v : Byte) (hab : b ≠ a) :
    (m.write a v).read b = m.read b := by
  induction m with
  | nil => by_cases hv : v = Memory.unlisted <;> simp [Memory.write, Memory.read, hv, Ne.symm hab]
  | cons c m ih =>
    simp only [Memory.write]
    split
    · split
      · rfl
      · simp [Memory.read, Ne.symm hab]
    · split
      · rename_i he
        split <;> simp [Memory.read, he ▸ Ne.symm hab, Ne.symm hab]
      · simp only [Memory.read, ih]

theorem Memory.mem_write {m : Memory} {a : Nat} {v : Byte} {c : Host.Cell} (h : c ∈ m.write a v) :
    c ∈ m ∨ c = (a, v) ∧ v ≠ Memory.unlisted := by
  induction m with
  | nil =>
    by_cases hv : v = Memory.unlisted
    · simp [Memory.write, hv] at h
    · simp [Memory.write, hv] at h
      exact .inr ⟨h, hv⟩
  | cons d m ih =>
    simp only [Memory.write] at h
    split at h
    · split at h
      · exact .inl h
      · rename_i hv
        rcases List.mem_cons.mp h with h | h
        · exact .inr ⟨h, hv⟩
        · exact .inl h
    · split at h
      · split at h
        · exact .inl (by simp [h])
        · rename_i hv
          rcases List.mem_cons.mp h with h | h
          · exact .inr ⟨h, hv⟩
          · exact .inl (by simp [h])
      · rcases List.mem_cons.mp h with h | h
        · exact .inl (by simp [h])
        · rcases ih h with h | h
          · exact .inl (by simp [h])
          · exact .inr h

/-- A write to a register of a peripheral keeps the canonical form. -/
theorem Memory.write_wf {m : Memory} {a : Nat} (v : Byte) (ha : a < 256) (h : m.wf) : (m.write a v).wf := by
  refine ⟨?_, fun c hc => ?_⟩
  · induction m with
    | nil => by_cases hv : v = Memory.unlisted <;> simp [Memory.write, hv]
    | cons c m ih =>
      have hp := List.pairwise_cons.mp h.1
      simp only [Memory.write]
      split
      · rename_i hlt
        split
        · exact h.1
        · refine List.pairwise_cons.mpr ⟨fun d hd => ?_, h.1⟩
          rcases List.mem_cons.mp hd with rfl | hd
          · exact hlt
          · exact Nat.lt_trans hlt (hp.1 d hd)
      · split
        · rename_i he
          split
          · exact hp.2
          · exact List.pairwise_cons.mpr ⟨fun d hd => he ▸ hp.1 d hd, hp.2⟩
        · refine List.pairwise_cons.mpr ⟨fun d hd => ?_, ih (Memory.wf_tail h)⟩
          rcases Memory.mem_write hd with hd | ⟨rfl, _⟩
          · exact hp.1 d hd
          · simp only
            omega
  · rcases Memory.mem_write hc with hc | ⟨rfl, hv⟩
    · exact h.2 c hc
    · exact ⟨ha, hv⟩

/-- The registers of a list of peripherals are in canonical form. -/
abbrev RegsWf (l : List Peripheral) : Prop := ∀ p ∈ l, p.reg.wf

theorem RegsWf.map {l : List Peripheral} {f : Peripheral → Peripheral} (hf : ∀ p, p.reg.wf → (f p).reg.wf)
    (h : RegsWf l) : RegsWf (l.map f) := by
  intro p hp
  obtain ⟨q, hq, rfl⟩ := List.mem_map.mp hp
  exact hf q (h q hq)

theorem Peripheral.transmit_wf (q : Params) (d : Byte) {p : Peripheral} (h : p.reg.wf) :
    (p.transmit q d).reg.wf := by
  unfold Peripheral.transmit
  split
  · exact h
  · exact Memory.write_wf _ p.ptr.isLt h
  · exact h
  · exact h

theorem Peripheral.receive_reg (last : Bool) (p : Peripheral) : (p.receive last).reg = p.reg := by
  unfold Peripheral.receive
  split
  · rfl
  · split <;> rfl

/-- Only `TXD` stores; every answer of the reference environment keeps the canonical form. -/
theorem Env0.answer_wf (q : Params) {e : Env0} (k : StepKind) (d : Byte) (h : RegsWf e.peripherals) :
    RegsWf (e.answer q k d).1.peripherals := by
  cases k
  case start => exact h.map fun p hp => hp
  case slaw => exact h.map fun p hp => by split <;> exact hp
  case slar => exact h.map fun p hp => by split <;> exact hp
  case txd => exact h.map fun p hp => p.transmit_wf q d hp
  case rxa => exact h.map fun p hp => (p.receive_reg false).symm ▸ hp
  case rxn => exact h.map fun p hp => (p.receive_reg true).symm ▸ hp
  case stop => exact h.map fun p hp => hp
  case rearm => exact h.map fun p hp => hp

theorem Env0.stop_wf (q : Params) {e : Env0} (h : RegsWf e.peripherals) : RegsWf (e.stop q).peripherals :=
  h.map fun _ hp => hp

theorem Env0.rearm_wf {e : Env0} (h : RegsWf e.peripherals) : RegsWf e.rearm.peripherals := h.map fun _ hp => hp

/-- The start values of `ENV0` leave the registers (70_reset_and_hazards.md R201). -/
theorem Env0.powerUp_wf (n : Nat) {e : Env0} (h : RegsWf e.peripherals) : RegsWf (e.powerUp n).peripherals := by
  intro p hp
  obtain ⟨i, hi, rfl⟩ := List.mem_mapIdx.mp hp
  exact h e.peripherals[i] (List.getElem_mem hi)

theorem State.startEnv0_wf {s : State} (h : RegsWf s.peripherals) : RegsWf s.startEnv0.peripherals := by
  rcases hr : s.env.ref with _ | r
  · simp [State.peripherals, hr, RegsWf]
  · have hr' : RegsWf r.peripherals := by simpa [State.peripherals, hr] using h
    simpa [State.peripherals, hr] using Env0.powerUp_wf s.free hr'

theorem State.busWait_wf {s : State} (k : StepKind) (d : Byte) (h : RegsWf s.peripherals) :
    RegsWf (s.busWait k d).peripherals := by
  rcases hr : s.env.ref with _ | r
  · simp [State.peripherals, Environment.draw, hr, RegsWf]
  · have hr' : RegsWf r.peripherals := by simpa [State.peripherals, hr] using h
    simpa [State.peripherals, Environment.draw, hr] using Env0.answer_wf s.params k d hr'

theorem State.busRelease_wf {s : State} (k : StepKind) (h : RegsWf s.peripherals) :
    RegsWf (s.busRelease k).peripherals := by
  rcases hr : s.env.ref with _ | r
  · simp [State.peripherals, Environment.release, hr, RegsWf]
  · have hr' : RegsWf r.peripherals := by simpa [State.peripherals, hr] using h
    by_cases hk : k = .rearm
    · simpa [State.peripherals, Environment.release, hr, hk] using Env0.rearm_wf hr'
    · simpa [State.peripherals, Environment.release, hr, hk] using Env0.stop_wf s.params hr'

/-- A peripheral plugged in, removed or settled from outside (10_state.md R32). -/
theorem Env0.plug_wf {e : Env0} {p : Peripheral} (hp : p.reg.wf) (h : RegsWf e.peripherals) :
    RegsWf (e.plug p).peripherals := by
  intro r hr
  rcases List.mem_cons.mp hr with rfl | hr
  · exact hp
  · exact h r hr

theorem Env0.unplug_wf {e : Env0} (a : BusAddr) (h : RegsWf e.peripherals) : RegsWf (e.unplug a).peripherals :=
  fun r hr => h r (List.mem_of_mem_filter hr)

theorem Env0.settled_wf {e : Env0} (a : BusAddr) (h : RegsWf e.peripherals) : RegsWf (e.settled a).peripherals :=
  h.map fun p hp => by split <;> exact hp

/-- What `BusStep` keeps of the environment, every issued bus step keeps. -/
theorem issue_wf {s : State} (h : RegsWf s.peripherals) : RegsWf (issue s).peripherals := by
  have hwait : ∀ (k : StepKind) (d : Byte) (f : Byte → State → State), (∀ rx t, (f rx t).peripherals = t.peripherals) →
      RegsWf (s.waitingStep k d f).peripherals := by
    intro k d f hf
    rcases hh : s.hung with _ | _
    · rcases waitingStep_cases s k d f hh with ⟨_, _, rx, _, _, _, e⟩ | ⟨c, _, _, _, _, e⟩ | ⟨_, _, _, e⟩
      · rw [e, hf]; exact State.busWait_wf k d h
      · rw [e]; exact State.busWait_wf (s := s) k d h
      · rw [e]; exact State.busWait_wf k d h
    · rw [waitingStep_hung _ _ _ _ hh]; exact h
  have hrel : ∀ k, RegsWf (s.releaseStep k).peripherals := by
    intro k
    unfold State.releaseStep
    split
    · exact h
    · exact State.busRelease_wf (s := s) k h
  have hstart : RegsWf (busStart s).peripherals := hwait _ _ _ fun _ t => by split <;> rfl
  unfold issue
  split
  · exact h
  · exact hstart
  · exact hwait _ _ _ fun _ _ => rfl
  · exact hwait _ _ _ fun _ _ => rfl
  · split
    · exact hstart
    · exact hwait _ _ _ fun _ _ => rfl
  · exact hwait _ _ _ fun _ _ => rfl
  · split <;> exact hwait _ _ _ fun _ _ => rfl
  · exact hrel _
  · exact hrel _

/-- A transaction keeps the canonical form of every peripheral's registers. -/
theorem transact_wf {s : State} (a : BusAddr) (p : List Byte) (n : Byte) (h : RegsWf s.peripherals) :
    RegsWf (transact a p n s).peripherals := by
  have hb : RegsWf (s.beginTransaction a p n).peripherals := by simpa [State.peripherals] using h
  unfold transact
  split
  · exact h
  · split
    · exact hb
    · exact engine_induct (P := fun t => RegsWf t.peripherals) (fun t ht _ _ => issue_wf ht) _ _ hb

/-- Memory at reset lists nothing, so it has the canonical form. -/
theorem reset_regsWf : RegsWf State.reset.peripherals := by
  intro p hp
  simp [State.peripherals, State.reset] at hp

end Sys2Proof.Machine
end

