-- ==== Sys2Proof/Laws/PerInstr.lean ====
section
/-! SUPPORT. What is true of every instruction as syntax: the shape of its words (30_encoding.md R60, R61, R65, R69,
R74, R76). -/

namespace Sys2Proof.Laws.EncodedShape

/-- A host command is the one byte of `TICK` or a header that counts its payload; a step word has a defined `op`, and
zero data where its data "must be 0"; a macro-operation has no words and expands to other operations. -/
def Fits (i : Instr) : Encoded → Prop
  | .host bytes => bytes = [0x80] ∨ ∃ b0 wlen rlen body, bytes = b0 :: wlen :: rlen :: body ∧ b0.msb = false ∧
      body.length = wlen.toNat
  | .step w => StepWord.op w ≠ 7 ∧ (StepWord.op w ≠ 1 → StepWord.op w ≠ 2 → StepWord.data w = 0)
  | .none => ∀ p, expansion p i ≠ [i]

/-- The words of a well-formed instruction have that shape. -/
def Statement (i : Instr) : Prop := i.wf = true → Fits i (encode i)

theorem header_msb (a : BusAddr) : (a.setWidth 8 : Byte).msb = false := by
  rw [BitVec.msb_setWidth]
  exact BitVec.getLsbD_of_ge a 7 (Nat.le_refl 7)

theorem length_toNat {p : List Byte} (h : p.length ≤ 255) : p.length = (BitVec.ofNat 8 p.length).toNat := by
  simp; omega

theorem xactInv (a : BusAddr) : Statement (.xactInv a) := fun _ =>
  .inr ⟨_, _, _, [], rfl, header_msb a, rfl⟩

theorem xactW (a : BusAddr) (p : List Byte) : Statement (.xactW a p) := fun h =>
  .inr ⟨_, _, _, p, rfl, header_msb a, length_toNat (of_decide_eq_true h).2⟩

theorem xactR (a : BusAddr) (n : Byte) : Statement (.xactR a n) := fun _ =>
  .inr ⟨_, _, _, [], rfl, header_msb a, rfl⟩

theorem xactWr (a : BusAddr) (p : List Byte) (n : Byte) : Statement (.xactWr a p n) := fun h =>
  .inr ⟨_, _, _, p, rfl, header_msb a,
    length_toNat (of_decide_eq_true ((Bool.and_eq_true_iff).mp h).1).2⟩

theorem tick : Statement .tick := fun _ => .inl rfl

theorem regwr (a : BusAddr) (r : Byte) (vs : List Byte) : Statement (.regwr a r vs) :=
  fun _ _ h => Instr.noConfusion (List.cons.inj h).1

theorem regrd (a : BusAddr) (r n : Byte) : Statement (.regrd a r n) := by
  intro _ p h
  change (match p.regReadMode with
    | .combined => [Instr.xactWr a [r] n]
    | .split => [Instr.xactW a [r], Instr.xactR a n]) = _ at h
  split at h <;> exact Instr.noConfusion (List.cons.inj h).1

theorem init : Statement .init := fun _ _ h => Instr.noConfusion (List.cons.inj h).1

theorem poll : Statement .poll := fun _ _ h => Instr.noConfusion (List.cons.inj h).1

theorem op_stepWordOf (op : BitVec 3) (d : Byte) : StepWord.op (stepWordOf op d) = op :=
  BitVec.extractLsb'_append_eq_left

/-- A step whose data is zero. -/
theorem zeroData (op : BitVec 3) (h : op ≠ 7) : StepWord.op (stepWordOf op 0) ≠ 7 ∧
    (StepWord.op (stepWordOf op 0) ≠ 1 → StepWord.op (stepWordOf op 0) ≠ 2 → StepWord.data (stepWordOf op 0) = 0) := by
  rw [op_stepWordOf]
  exact ⟨h, fun _ _ => by revert op; decide⟩

/-- A step that carries a byte. -/
theorem withData (op : BitVec 3) (d : Byte) (h : op = 1 ∨ op = 2) : StepWord.op (stepWordOf op d) ≠ 7 ∧
    (StepWord.op (stepWordOf op d) ≠ 1 → StepWord.op (stepWordOf op d) ≠ 2 → StepWord.data (stepWordOf op d) = 0) := by
  rw [op_stepWordOf]
  exact ⟨by rcases h with rfl | rfl <;> decide, fun h1 h2 => (h.elim h1 h2).elim⟩

theorem start : Statement .start := fun _ => zeroData 0 (by decide)

theorem rstart : Statement .rstart := fun _ => zeroData 0 (by decide)

theorem slaw (a : BusAddr) : Statement (.slaw a) := fun _ => withData 1 (a ++ 0#1) (.inl rfl)

theorem slar (a : BusAddr) : Statement (.slar a) := fun _ => withData 1 (a ++ 1#1) (.inl rfl)

theorem txd (d : Byte) : Statement (.txd d) := fun _ => withData 2 d (.inr rfl)

theorem rxa : Statement .rxa := fun _ => zeroData 3 (by decide)

theorem rxn : Statement .rxn := fun _ => zeroData 4 (by decide)

theorem stop : Statement .stop := fun _ => zeroData 5 (by decide)

theorem rearm : Statement .rearm := fun _ => zeroData 6 (by decide)

end Sys2Proof.Laws.EncodedShape
end

