-- ==== Sys2Proof/Laws/Step.lean ====
section
/-! SUPPORT. One step of a busy block, and the runs that follow the engine bus step by bus step. -/

namespace Sys2Proof.Machine

/-- The instruction the engine issues runs as the engine runs it. -/
theorem exec_issued {s : State} {i : Instr} (h : s.issued = some i) : exec i s = .next (issue s) := by
  cases hp : s.phase <;> simp only [State.issued, hp, Option.some.injEq, reduceCtorEq] at h <;>
    simp only [issue, hp] <;> first | (subst h; rfl) | (subst h; split <;> rfl)

theorem issued_isSome {s : State} (h : s.phase ≠ .idle) : ∃ i, s.issued = some i := by
  unfold State.issued
  split
  · exact absurd ‹_› h
  all_goals exact ⟨_, rfl⟩

/-- In a transaction, a step is the engine's next bus step. -/
theorem step_issue {s : State} (hb : s.busy = true) (hh : s.hung = false) (hp : s.phase ≠ .idle) :
    step s = .next (issue s) := by
  obtain ⟨i, hi⟩ := issued_isSome hp
  simp [step, State.fetch, hb, hh, hi, exec_issued hi]

/-- Between two transactions, a step is the sequencer's next move. -/
theorem step_resume {s : State} (hb : s.busy = true) (hh : s.hung = false) (hp : s.phase = .idle) :
    step s = .next (resume s) := by
  simp [step, State.fetch, hb, hh, State.issued, hp]

@[simp] theorem issue_busy (s : State) : (issue s).busy = s.busy :=
  issue_keeps State.busy (by simp) (by simp) (by simp) (by simp) (by simp) s

/-- A run goes on where another ended. -/
theorem run_add {j k : Nat} {s t : State} (h : Sys2Proof.core.run j s = .next t) :
    Sys2Proof.core.run (j + k) s = Sys2Proof.core.run k t := by
  induction j generalizing s with
  | zero => cases h; simp
  | succ j ih =>
    rw [Nat.add_right_comm]
    simp only [Host.Core.run] at h ⊢
    split at h
    · exact ih h
    · cases h
    · cases h

/-- The engine's bus steps are steps of the machine, one each. -/
theorem run_engine (n : Nat) (s : State) (hb : s.busy = true) :
    ∃ k, Sys2Proof.core.run k s = .next (engine n s) := by
  induction n generalizing s with
  | zero => exact ⟨0, rfl⟩
  | succ n ih =>
    unfold engine
    split
    · exact ⟨0, rfl⟩
    · rename_i hc
      simp only [Bool.or_eq_true, beq_iff_eq, not_or, Bool.not_eq_true] at hc
      obtain ⟨k, hk⟩ := ih (issue s) (by simpa using hb)
      refine ⟨k + 1, ?_⟩
      have hs : Sys2Proof.core.step s = .next (issue s) := step_issue hb hc.1 hc.2
      simp only [Host.Core.run, hs]
      exact hk

/-- So is a transaction from its start, when it is not the empty form. -/
theorem run_transact (a : BusAddr) (p : List Byte) (n : Byte) (s : State) (hb : s.busy = true) (hh : s.hung = false)
    (hne : ¬(p = [] ∧ n = 0)) :
    ∃ k, Sys2Proof.core.run k (s.beginTransaction a p n) = .next (transact a p n s) := by
  simp only [transact, hh, Bool.false_eq_true, ↓reduceIte, if_neg hne]
  exact run_engine _ _ (by simpa using hb)

end Sys2Proof.Machine
end

