-- ==== Sys2Proof/Tests/Slice0.lean ====
section
/-! SUPPORT. Tests: refused ill-formed instructions, words written out from the encoding tables, vectors of
95_test_vectors.md (one step each), and for every statement with hypotheses a state that meets them. -/

namespace Sys2Proof.Tests

open Sys2Proof.Machine Sys2Proof.Config

/-! ## States and tokens -/

/-- The reset state under the binding `V0` with the reference environment and these peripherals. -/
def withPeripherals (l : List Peripheral) : State :=
  { State.reset with params := v0, settle := 0, env := { ref := some { owned := false, peripherals := l }, script := [] } }

/-- A settled peripheral at an address, with these registers. -/
def peripheral (a : BusAddr) (m : Memory) : Peripheral :=
  { paddr := a, reg := m, ptr := 0, sel := .none, settling := false, secondary := false, redirectPending := false }

/-- The Nunchuk of program P1. -/
def nunchuk : Peripheral := peripheral 0x52 [(0x00, 0x80), (0x01, 0x80), (0x05, 0x0F)]

/-- The reset state with that Nunchuk. -/
def plugged : State := withPeripherals [nunchuk]

/-- The Nunchuk identified (vector I9). -/
def active : State := { plugged with pstate := .active, pclass := .nunchuk }

/-- These answers are scripted for the next waiting steps. -/
def scripted (s : State) (l : List Override) : State := { s with env := { s.env with script := l } }

/-- `n` steps answered by the environment, then one with this status. -/
def thenStatus (n : Nat) (st : Byte) : List Override :=
  List.replicate n ⟨none, none, none⟩ ++ [⟨none, some st, none⟩]

/-- A token of a step answered at once. -/
def tok (word : StepWord) (st : Byte) (rx : Byte := 0) : Token := { word := word, reply := .ready 0 st rx }

def tokS : Token := tok 0x000 0x08
def tokSr : Token := tok 0x000 0x10
def tokP : Token := { word := 0x500, reply := .noAnswer }
def tokX : Token := { word := 0x600, reply := .noAnswer }

/-- `exec`, or the state as it was where it answers no next state. -/
def ran (i : Instr) (s : State) : State :=
  match exec i s with
  | .next t => t
  | _ => s

/-- `step`, likewise. -/
def stepped (s : State) : State :=
  match step s with
  | .next t => t
  | _ => s

/-! ## Well-formedness -/

theorem test_wf_refuses_empty_write : (Instr.xactW 0x52 []).wf = false := by decide
theorem test_wf_refuses_long_write : (Instr.xactW 0x52 (List.replicate 256 0)).wf = false := by decide +kernel
theorem test_wf_accepts_longest_write : (Instr.xactW 0x52 (List.replicate 255 0)).wf = true := by decide +kernel
theorem test_wf_refuses_empty_read : (Instr.xactR 0x52 0).wf = false := by decide
theorem test_wf_refuses_wr_without_payload : (Instr.xactWr 0x52 [] 1).wf = false := by decide
theorem test_wf_refuses_wr_long_payload : (Instr.xactWr 0x52 (List.replicate 256 0) 1).wf = false := by decide +kernel
theorem test_wf_refuses_wr_without_read : (Instr.xactWr 0x52 [0] 0).wf = false := by decide
theorem test_wf_refuses_regwr_without_values : (Instr.regwr 0x52 0xF0 []).wf = false := by decide
theorem test_wf_refuses_long_regwr : (Instr.regwr 0x52 0xF0 (List.replicate 255 0)).wf = false := by decide +kernel
theorem test_wf_refuses_empty_regrd : (Instr.regrd 0x52 0xFE 0).wf = false := by decide

/-! ## Words (95_test_vectors.md section 2.1; 30_encoding.md R61, R65, R69) -/

theorem test_decode_xact_inv : decodeHost [0b01010010, 0, 0] = .command (.xactInv 0x52) [] := by decide
theorem test_decode_xact_w :
    decodeHost [0b01010010, 0b10, 0, 0xF0, 0x55] = .command (.xactW 0x52 [0xF0, 0x55]) [] := by decide
theorem test_decode_xact_r : decodeHost [0b01010010, 0, 0b10, 0x80] = .command (.xactR 0x52 2) [0x80] := by decide
theorem test_decode_xact_wr : decodeHost [0b01010010, 1, 0b110, 0] = .command (.xactWr 0x52 [0] 6) [] := by decide
theorem test_decode_tick : decodeHost [0b10000000] = .command .tick [] := by decide
theorem test_decode_longest_header :
    decodeHost (0x7F :: 0xFF :: 0xFF :: List.replicate 255 0xAA) =
      .command (.xactWr 0x7F (List.replicate 255 0xAA) 255) [] := by decide +kernel
theorem test_decode_reserved : decodeHost [0x81] = .reserved 0x81 [] ∧ decodeHost [0xFF] = .reserved 0xFF [] := by
  decide
theorem test_decode_incomplete : decodeHost [0x52, 2, 0, 0xF0] = .incomplete := by decide
theorem test_decode_start : decodeStepWord false 0b00000000000 = .step .start := by decide
theorem test_decode_rstart : decodeStepWord true 0b00000000000 = .step .rstart := by decide
theorem test_decode_slaw : decodeStepWord false 0b00110100100 = .step (.slaw 0b1010010) := by decide
theorem test_decode_slar : decodeStepWord false 0b00110100101 = .step (.slar 0b1010010) := by decide
theorem test_decode_txd : decodeStepWord false 0b01001010101 = .step (.txd 0x55) := by decide
theorem test_decode_rxa : decodeStepWord false 0b01100000000 = .step .rxa := by decide
theorem test_decode_rxn : decodeStepWord false 0b10000000000 = .step .rxn := by decide
theorem test_decode_stop : decodeStepWord false 0b10100000000 = .step .stop := by decide
theorem test_decode_rearm : decodeStepWord false 0b11000000000 = .step .rearm := by decide
theorem test_decode_reserved_op : decodeStepWord false 0b11100000000 = .reservedOp := by decide
theorem test_decode_nonzero_data : decodeStepWord false 0b10100000001 = .nonzeroData := by decide
theorem test_table_words :
    decodeTableWord 24 0x520006 = some (.xactR 0x52 6) ∧ decodeTableWord 24 0x520100 = some (.xactW 0x52 [0]) ∧
      decodeTableWord 8 0x80 = some .tick ∧ decodeTableWord 11 0x1A5 = some (.slar 0x52) ∧
      decodeTableWord 8 0x81 = none ∧ decodeTableWord 11 0x700 = none := by decide

/-- 42_register_protocol.md R131, R132 and 30_encoding.md R76: the expansions of the macro-operations. -/
theorem test_expansions :
    expansion v0 (.regwr 0x52 0xF0 [0x55]) = [.xactW 0x52 [0xF0, 0x55]] ∧
      expansion v0 (.regrd 0x52 0xFE 2) = [.xactWr 0x52 [0xFE] 2] ∧
      expansion v0 .poll = [.regrd 0x52 0x00 6] ∧ (expansion v0 .init).length = 4 := by decide

/-! ## Host commands (95_test_vectors.md section 2.3) -/

/-- T1. -/
theorem test_xact_inv :
    (ran (.xactInv 0x52) plugged).responses = [[0x01, 0x00]] ∧ (ran (.xactInv 0x52) plugged).trace = [] := by
  decide +kernel

/-- T2. -/
theorem test_xact_w :
    (ran (.xactW 0x52 [0xF0, 0x55]) plugged).responses = [[0x00, 0x00]] ∧
      (ran (.xactW 0x52 [0xF0, 0x55]) plugged).trace =
        [tokS, tok 0x1A4 0x18, tok 0x2F0 0x28, tok 0x255 0x28, tokP] := by decide +kernel

/-- T12: arbitration lost at `SLAW`. -/
theorem test_xact_w_arbitration :
    (ran (.xactW 0x52 [0xF0, 0x55]) (scripted plugged (thenStatus 1 0x38))).responses = [[0x04, 0x00]] ∧
      (ran (.xactW 0x52 [0xF0, 0x55]) (scripted plugged (thenStatus 1 0x38))).trace =
        [tokS, tok 0x1A4 0x38, tokX] := by decide +kernel

/-- T5. -/
theorem test_xact_r :
    (ran (.xactR 0x52 1) plugged).responses = [[0x00, 0x01, 0x80]] ∧
      (ran (.xactR 0x52 1) plugged).trace = [tokS, tok 0x1A5 0x40, tok 0x400 0x58 0x80, tokP] := by decide +kernel

/-- T6. -/
theorem test_xact_wr :
    (ran (.xactWr 0x52 [0x00] 6) plugged).responses = [[0x00, 0x06, 0x80, 0x80, 0x00, 0x00, 0x00, 0x0F]] ∧
      (ran (.xactWr 0x52 [0x00] 6) plugged).trace =
        [tokS, tok 0x1A4 0x18, tok 0x200 0x28, tokSr, tok 0x1A5 0x40, tok 0x300 0x50 0x80, tok 0x300 0x50 0x80,
          tok 0x300 0x50 0x00, tok 0x300 0x50 0x00, tok 0x300 0x50 0x00, tok 0x400 0x58 0x0F, tokP] := by
  decide +kernel

/-- T15: partial data is returned. -/
theorem test_xact_wr_partial :
    (ran (.xactWr 0x52 [0x00] 6) (scripted plugged (thenStatus 7 0x38))).responses = [[0x04, 0x02, 0x80, 0x80]] := by
  decide +kernel

/-- I3, as the first command after reset (P1). -/
theorem test_tick_identifies :
    (stepped { plugged with inbox := [0x80] }).responses =
        [[0x33, 0x00, 0x00, 0x80, 0x80, 0x00, 0x00, 0x00, 0x0F]] ∧
      (stepped { plugged with inbox := [0x80] }).trace.length = 33 ∧
      (stepped { plugged with inbox := [0x80] }).registerAt 0 0xF0 = some 0x55 := by decide +kernel

/-- I10: the peripheral is unplugged. -/
theorem test_tick_unplugged :
    (ran .tick { active with env := (withPeripherals []).env }).responses = [[0x20, 0x00, 0x00]] ∧
      (ran .tick { active with env := (withPeripherals []).env }).pstate = .uninitialized := by decide +kernel

/-! ## Macro-operations (95_test_vectors.md sections 2.4, 2.5) -/

theorem test_regwr :
    (ran (.regwr 0x52 0xF0 [0x55]) plugged).trace = [tokS, tok 0x1A4 0x18, tok 0x2F0 0x28, tok 0x255 0x28, tokP] ∧
      (ran (.regwr 0x52 0xF0 [0x55]) plugged).registerAt 0 0xF0 = some 0x55 := by decide +kernel

theorem test_regwr_absent :
    (ran (.regwr 0x53 0xFE [0x04]) plugged).result = .addressNack ∧
      (ran (.regwr 0x53 0xFE [0x04]) plugged).trace = [tokS, tok 0x1A6 0x20, tokP] := by decide +kernel

theorem test_regrd :
    (ran (.regrd 0x52 0x00 2) plugged).received = [0x80, 0x80] ∧ (ran (.regrd 0x52 0x00 2) plugged).result = .ok := by
  decide +kernel

/-- `split`, peripheral absent: the read transaction is not issued. -/
theorem test_regrd_split_absent :
    (ran (.regrd 0x52 0x00 6) { withPeripherals [] with params := { v0 with regReadMode := .split } }).trace =
      [tokS, tok 0x1A4 0x20, tokP] := by decide +kernel

/-- The `INIT` of I7: identity `FF FF`. -/
theorem test_init_unknown :
    (ran .init (withPeripherals [peripheral 0x52 [(0xFE, 0xFF), (0xFF, 0xFF)]])).ident = 0xFFFF ∧
      (ran .init (withPeripherals [peripheral 0x52 [(0xFE, 0xFF), (0xFF, 0xFF)]])).pclass = .unknown := by
  decide +kernel

/-- The `INIT` of I4: arbitration lost at the redirect's `SLAW`. -/
theorem test_init_fails :
    (ran .init (scripted plugged (thenStatus 1 0x38))).trace = [tokS, tok 0x1A6 0x38, tokX] ∧
      (ran .init (scripted plugged (thenStatus 1 0x38))).pclass = .none := by decide +kernel

theorem test_poll :
    (ran .poll active).sample.toList = [0x80, 0x80, 0x00, 0x00, 0x00, 0x0F] ∧ (ran .poll active).sampleValid = true := by
  decide +kernel

/-- I11: arbitration lost at the fourth report byte. -/
theorem test_poll_fails :
    (ran .poll (scripted active (thenStatus 8 0x38))).sampleValid = false ∧
      (ran .poll (scripted active (thenStatus 8 0x38))).calibReset = true := by decide +kernel

/-! ## Bus steps (95_test_vectors.md section 2.2) -/

theorem test_start :
    (ran .start (plugged.inPhase .wStart)).phase = .wAddr ∧ (ran .start (plugged.inPhase .wStart)).trace = [tokS] := by
  decide +kernel

theorem test_start_arbitration :
    (ran .start (scripted (plugged.inPhase .rStart) (thenStatus 0 0x38))).result = .arbitrationLost ∧
      (ran .start (scripted (plugged.inPhase .rStart) (thenStatus 0 0x38))).phase = .rearming := by decide +kernel

theorem test_rstart : (ran .rstart (scripted (plugged.inPhase .rStart) (thenStatus 0 0x10))).phase = .rAddr := by
  decide +kernel

/-- T13: the repeated start is answered `00`. -/
theorem test_rstart_timeout :
    (ran .rstart (scripted (plugged.inPhase .rStart) (thenStatus 0 0x00))).result = .timeout := by decide +kernel

theorem test_slaw_nack :
    (ran (.slaw 0x10) (plugged.inPhase .wAddr)).result = .addressNack ∧
      (ran (.slaw 0x10) (plugged.inPhase .wAddr)).trace = [tok 0x120 0x20] := by decide +kernel

theorem test_slar :
    (ran (.slar 0x52) (plugged.inPhase .rAddr)).phase = .rData ∧
      (ran (.slar 0x52) (plugged.inPhase .rAddr)).trace = [tok 0x1A5 0x40] := by decide +kernel

/-- `NOT_READY` wins over the status (60_exceptions.md R176 item 3). -/
theorem test_txd_not_ready :
    (ran (.txd 0x00) (scripted (plugged.inPhase .wData) [answered 1000 0x30 0])).result = .timeout ∧
      (ran (.txd 0x00) (scripted (plugged.inPhase .wData) [answered 1000 0x30 0])).waitcnt = 1000 := by decide +kernel

theorem test_txd_slow :
    (ran (.txd 0x00) (scripted (plugged.inPhase .wData) [answered 999 0x28 0])).result = .ok ∧
      (ran (.txd 0x00) (scripted (plugged.inPhase .wData) [answered 999 0x28 0])).waitcnt = 999 := by decide +kernel

theorem test_rxa :
    (ran .rxa (scripted (plugged.inPhase .rData) [answered 0 0x50 0xA4])).received = [0xA4] ∧
      (ran .rxa (scripted (plugged.inPhase .rData) [answered 0 0x50 0xA4])).phase = .rData := by decide +kernel

theorem test_rxa_nacked_status :
    (ran .rxa (scripted (plugged.inPhase .rData) [answered 0 0x58 0xA4])).result = .timeout ∧
      (ran .rxa (scripted (plugged.inPhase .rData) [answered 0 0x58 0xA4])).rcount = 0 := by decide +kernel

/-- An undriven line reads `FF` (20_memory.md R49). -/
theorem test_rxn :
    (ran .rxn (plugged.inPhase .rData)).received = [0xFF] ∧ (ran .rxn (plugged.inPhase .rData)).phase = .stopping := by
  decide +kernel

theorem test_stop : (ran .stop (plugged.inPhase .stopping)).trace = [tokP] := by decide +kernel
theorem test_rearm : (ran .rearm (plugged.inPhase .rearming)).trace = [tokX] := by decide +kernel

/-! ## States that meet the hypotheses of the statements -/

/-- A pass status of a waiting step (40_bus_steps.md R100); a `START` after the first step is a repeated one. -/
def passStatus (i : Nat) : StepKind → Byte
  | .start => if i = 0 then 0x08 else 0x10
  | .slaw => 0x18
  | .slar => 0x40
  | .txd => 0x28
  | .rxa => 0x50
  | .rxn => 0x58
  | .stop => 0
  | .rearm => 0

/-- The steps with these kinds and data, each passing at once and receiving `0x5A`. -/
def passing (l : List (StepKind × Byte)) : List PassingStep :=
  l.mapIdx fun i e => { kind := e.1, data := e.2, wait := 0, status := passStatus i e.1, rx := 0x5A }

/-- A state in which the given steps are about to pass. -/
def letting (s : State) (l : List (StepKind × Byte)) : State := scripted s (passingScript (passing l))

/-- A reset in the middle of a transaction, the bus owned and a peripheral selected. -/
def midTransaction : State :=
  { plugged.inPhase .wData with
    env := { ref := some { owned := true, peripherals := [{ nunchuk with sel := .wr }] }, script := [] } }

theorem witness_ResetLeavesSpecifiedValues :
    (∃ s t : State, s = State.reset ∨ s = t.powerCycle) ∧
      ∃ e p, midTransaction.powerCycle.env.ref = some e ∧ p ∈ e.peripherals :=
  ⟨⟨_, active, .inl rfl⟩, _, _, rfl, List.mem_cons_self⟩

/-- After that reset the next `START` is a fresh one (10_state.md R30). -/
theorem test_start_after_reset : (ran .start (midTransaction.powerCycle.inPhase .wStart)).trace = [tokS] := by
  decide +kernel

/-- A `START` whose wait is given up does not take the bus (10_state.md R30), one that passes does. -/
theorem test_start_takes_the_bus :
    (ran .start (scripted (plugged.inPhase .wStart) [⟨some .never, none, none⟩])).env.ref.map (·.owned) =
        some false ∧
      (ran .start (plugged.inPhase .wStart)).env.ref.map (·.owned) = some true := by decide +kernel

/-- An idle block with a `TICK` presented meets the invariant. -/
theorem inv_tick_presented : Inv { plugged with inbox := [0x80] } := by constructor <;> decide

/-- A block in the read phase of a `POLL` meets the invariant. -/
theorem inv_inside_poll :
    Inv { active with busy := true, pstep := .poll, phase := .rData, wlen := 1, rlen := 6, rcount := 5, idx := 5 } := by
  constructor <;> decide

theorem witness_EveryStepKeepsInv :
    (∃ s t : State, Inv s ∧ step s = .next t) ∧ ∃ s t : State, Inv s ∧ s.busy = true ∧ step s = .next t :=
  ⟨⟨_, _, inv_tick_presented, rfl⟩, _, _, inv_inside_poll, rfl, rfl⟩

theorem witness_HostCommandsDecodeBack :
    (Instr.xactWr 0x52 [0x00] 6).wf = true ∧ encode (.xactWr 0x52 [0x00] 6) = .host [0x52, 0x01, 0x06, 0x00] := by
  decide

theorem witness_DecodedCommandsEncodeBack : decodeHost [0x52, 0x00, 0x02, 0x80] = .command (.xactR 0x52 2) [0x80] := by
  decide

theorem witness_XactFormFollowsLengths :
    (0x7F : Byte).getLsbD 7 = false ∧ (List.replicate 255 (0 : Byte)).length = (255 : Byte).toNat ∧
      ([] : List Byte).length = (0 : Byte).toNat := by decide +kernel

theorem witness_BytesThatAreNoCommand :
    decodeHost [0x81] = .reserved 0x81 [] ∧ decodeHost [] = .incomplete ∧ decodeHost [0x7F, 0x01] = .incomplete ∧
      decodeHost [0x7F, 0x01, 0x00] = .incomplete ∧ decodeHost [0x80] = .command .tick [] := by decide

theorem witness_StepWordsRoundTrip :
    encode .rstart = .step 0x000 ∧ decodeStepWord false 0x1FF = .step (.slar 0x7F) ∧
      decodeStepWord false 0x7FF = .reservedOp ∧ decodeStepWord false 0x301 = .nonzeroData := by decide

theorem witness_StepRunsDecodedCommand :
    State.Idle { plugged with inbox := [0x80, 0x81] } ∧ decodeHost [0x80, 0x81] = .command .tick [0x81] := by decide

theorem witness_StepIssuesBusStepOfPhase :
    (∀ p, (plugged.inPhase p).busy = true ∧ (plugged.inPhase p).hung = false ∧ (plugged.inPhase p).phase = p) ∧
      (∃ s : State, s.phase = .wData ∧ s.idx.toNat = 254 ∧ s.busy = true ∧ s.hung = false) ∧
      (∃ s : State, s.phase = .rStart ∧ s.wlen ≠ 0 ∧ s.busy = true ∧ s.hung = false) ∧
      (∃ s : State, s.phase = .rData ∧ s.idx.toNat + 1 < s.rlen.toNat ∧ s.busy = true ∧ s.hung = false) ∧
      ∃ s : State, s.phase = .rData ∧ s.idx.toNat + 1 = s.rlen.toNat ∧ s.busy = true ∧ s.hung = false :=
  ⟨fun _ => ⟨rfl, rfl, rfl⟩,
    ⟨{ plugged.inPhase .wData with idx := 254 }, by decide⟩,
    ⟨{ plugged.inPhase .rStart with wlen := 1 }, by decide⟩,
    ⟨{ plugged.inPhase .rData with idx := 253, rlen := 255 }, by decide⟩,
    ⟨{ plugged.inPhase .rData with idx := 254, rlen := 255 }, by decide⟩⟩

theorem witness_ReservedByteIsRejected :
    State.Idle { plugged with inbox := [0x81] } ∧ 0x81 ≤ (0x81 : Byte).toNat ∧ 0x81 ≤ (0xFF : Byte).toNat := by decide

theorem witness_IncompleteCommandChangesNothing :
    plugged.Idle ∧ decodeHost plugged.inbox = .incomplete ∧ decodeHost [0x52, 0x02, 0x00, 0xF0] = .incomplete := by
  decide

theorem witness_HangKeepsEverything : State.hung { plugged.inPhase .wAddr with hung := true } = true := by decide

theorem witness_BusyBlockAcceptsNothing :
    (plugged.inPhase .wAddr).busy = true ∧ (xactOperands (.xactInv 0)).isSome = true ∧
      ∃ t, step (plugged.inPhase .wAddr) = .next t := ⟨rfl, rfl, _, rfl⟩

/-- The boundary values of a wait that is not given up, under `V0` and under `INF`. -/
theorem witness_allows : allows v0.waitLimit 999 = true ∧ allows v0.waitLimit 1000 = false ∧
    allows .inf 1000000 = true := by decide

theorem witness_StartStepsPass :
    (scripted (plugged.inPhase .wStart) [answered 999 0x08 0]).NextAnswer 999 0x08 0 ∧
      (scripted (plugged.inPhase .rStart) [answered 0 0x10 0]).NextAnswer 0 0x10 0 ∧
      (plugged.inPhase .wStart).phase = .wStart ∧ (plugged.inPhase .rStart).phase = .rStart ∧
      (plugged.inPhase .wStart).hung = false ∧ allows (plugged.inPhase .wStart).params.waitLimit 999 = true := by
  decide

theorem witness_AddressStepsPass :
    (scripted plugged [answered 999 0x18 0]).NextAnswer 999 0x18 0 ∧
      (scripted plugged [answered 0 0x40 0]).NextAnswer 0 0x40 0 ∧ plugged.hung = false ∧
      allows plugged.params.waitLimit 999 = true := by decide

theorem witness_TxdPasses :
    ∀ k : Fin 3, ∃ s : State, s.hung = false ∧ allows s.params.waitLimit 999 = true ∧ s.NextAnswer 999 0x28 0 ∧
      s.idx.toNat < s.wlen.toNat ∧ (k = 0 → s.idx.toNat + 1 < s.wlen.toNat) ∧
      (k = 1 → ¬s.idx.toNat + 1 < s.wlen.toNat ∧ s.rlen = 0) ∧
      (k = 2 → ¬s.idx.toNat + 1 < s.wlen.toNat ∧ s.rlen ≠ 0) :=
  fun k => match k with
    | 0 => ⟨{ scripted plugged [answered 999 0x28 0] with wlen := 255, idx := 253 }, by decide⟩
    | 1 => ⟨{ scripted plugged [answered 999 0x28 0] with wlen := 255, idx := 254 }, by decide⟩
    | 2 => ⟨{ scripted plugged [answered 999 0x28 0] with wlen := 255, idx := 254, rlen := 1 }, by decide⟩

theorem witness_ReadStepsPass :
    (∃ s : State, s.idx.toNat < 255 ∧ s.hung = false ∧ allows s.params.waitLimit 999 = true ∧ s.rcount.toNat < 255 ∧
        s.NextAnswer 999 0x50 0xFF) ∧
      ∃ s : State, s.idx.toNat < 255 ∧ s.hung = false ∧ allows s.params.waitLimit 0 = true ∧ s.rcount.toNat < 255 ∧
        s.NextAnswer 0 0x58 0x00 :=
  ⟨⟨{ scripted plugged [answered 999 0x50 0xFF] with idx := 254, rcount := 254 }, by decide⟩,
    ⟨{ scripted plugged [answered 0 0x58 0x00] with idx := 0, rcount := 0 }, by decide⟩⟩

theorem witness_ReleaseStepsComplete : plugged.hung = false := by decide

theorem witness_FailingStatusRaises :
    (scripted plugged [answered 999 0x20 0]).NextAnswer 999 0x20 0 ∧ plugged.hung = false ∧
      waitingWord (.slaw 0x10) = some 0x120 ∧ passesWith (.slaw 0x10) 0x20 = false ∧ passesWith .rxn 0x50 = false ∧
      passesWith .start 0x38 = false ∧ failsWith .start 0x38 = .arbitrationLost ∧
      (scripted plugged [answered 0 0x38 0]).NextAnswer 0 0x38 0 ∧ allows plugged.params.waitLimit 999 = true := by decide

theorem witness_GivenUpWaitIsTimeout :
    plugged.hung = false ∧ waitingWord .rxn = some 0x400 ∧ plugged.params.waitLimit = .polls 1000 (by decide) ∧
      (scripted plugged [answered 1000 0x58 0]).env.script.head? = some (answered 1000 0x58 0) ∧
      (answered 1000 0x58 0).w = some (.polls 1000) ∧
      (scripted plugged [⟨some .never, none, none⟩]).env.script.head? = some ⟨some .never, none, none⟩ := by decide

/-- A block whose `WAIT_LIMIT` is `INF`, and a next answer that never comes. -/
def stalled : State :=
  { scripted plugged [⟨some .never, none, none⟩] with params := { v0 with waitLimit := .inf } }

theorem witness_EndlessWaitHangs :
    stalled.hung = false ∧ waitingWord .rxa = some 0x300 ∧ stalled.params.waitLimit = .inf ∧
      stalled.env.script.head? = some ⟨some .never, none, none⟩ := by decide

theorem witness_BusStepFrame : busWord .stop = some 0x500 ∧ busWord .rxa = some 0x300 ∧ plugged.hung = false ∧
    ∃ t, exec .rxa plugged = .next t := ⟨rfl, rfl, rfl, _, rfl⟩

/-- A peripheral selected for writing, its pointer at `0xFF`. -/
def selected : Peripheral := { nunchuk with sel := .wr, ptr := 0xFF }

theorem witness_OnlyTxdStoresAndOnlyAtThePointer :
    busWord (.txd 0x55) = some 0x255 ∧ (∃ t, exec (.txd 0x55) (withPeripherals [selected]) = .next t) ∧
      ∀ p d, (withPeripherals [selected]).peripherals[0]? = some p → Instr.txd 0x55 = .txd d →
        ¬(p.sel = .wr ∧ p.ptr = 0x00) := by
  refine ⟨rfl, ⟨_, rfl⟩, fun p d h _ => ?_⟩
  obtain rfl : selected = p := Option.some.inj h
  decide

theorem witness_TxdStoresAtThePointer :
    (withPeripherals [selected]).hung = false ∧ (∃ t, exec (.txd 0x55) (withPeripherals [selected]) = .next t) ∧
      (withPeripherals [selected]).peripherals[0]? = some selected ∧ selected.reg.wf ∧ selected.sel = .wr :=
  ⟨rfl, ⟨_, rfl⟩, rfl, by decide, rfl⟩

theorem witness_PhaseMovesAsListed :
    (∀ p ∈ [(Phase.wStart, StepKind.start), (.wAddr, .slaw), (.wData, .txd), (.rStart, .start), (.rAddr, .slar),
        (.rData, .rxn), (.stopping, .stop), (.rearming, .rearm)],
      (plugged.inPhase p.1).busy = true ∧ (plugged.inPhase p.1).hung = false ∧
        (plugged.inPhase p.1).stepKind = some p.2 ∧ (plugged.inPhase p.1).idx.toNat < 255 ∧
        (stepped (plugged.inPhase p.1)).hung = false) ∧
      plugged.phase = .idle ∧ State.idx { plugged with idx := 254 } = 254 := by decide +kernel

theorem witness_EmptyTransactionIsInvalid : plugged.Idle := by decide

theorem witness_PassingTransactionCompletes :
    xactOperands (.xactWr 0x52 [0xFE] 2) = some (0x52, [0xFE], 2) ∧ (Instr.xactWr 0x52 [0xFE] 2).wf = true ∧
      Instr.xactWr 0x52 [0xFE] 2 ≠ .xactInv 0x52 ∧ (letting plugged (transactionSteps 0x52 [0xFE] 2)).Idle ∧
      (letting plugged (transactionSteps 0x52 [0xFE] 2)).LetsPass (transactionSteps 0x52 [0xFE] 2)
        (passing (transactionSteps 0x52 [0xFE] 2)) [] := by decide

/-- Its three forms, at the ends of the lengths. -/
theorem witness_PassingTransactionCompletes_forms :
    (∀ l ∈ [transactionSteps 0x00 [0x00] 0, transactionSteps 0x7F [] 1, transactionSteps 0x00 [] 255],
      (letting plugged l).LetsPass l (passing l) []) ∧
      (Instr.xactW 0x00 [0x00]).wf = true ∧ (Instr.xactR 0x7F 1).wf = true ∧ (Instr.xactR 0x00 255).wf = true := by
  decide +kernel

/-- The failing answers: a status of each class, and a wait that is given up. -/
theorem nextFails_each :
    plugged.NextFails .slaw (answered 999 0x20 0) (.ready 999 0x20 0) .addressNack ∧
      plugged.NextFails .txd (answered 0 0x30 0) (.ready 0 0x30 0) .dataNack ∧
      plugged.NextFails .start (answered 0 0x38 0) (.ready 0 0x38 0) .arbitrationLost ∧
      plugged.NextFails .rxn (answered 0 0x50 0) (.ready 0 0x50 0) .timeout ∧
      plugged.NextFails .slar (answered 1000 0x40 0) .notReady .timeout ∧
      plugged.NextFails .start ⟨some .never, none, none⟩ .notReady .timeout :=
  ⟨.inl ⟨_, _, _, rfl, by decide, rfl, by decide⟩, .inl ⟨_, _, _, rfl, by decide, rfl, by decide⟩,
    .inl ⟨_, _, _, rfl, by decide, rfl, by decide⟩, .inl ⟨_, _, _, rfl, by decide, rfl, by decide⟩,
    .inr ⟨1000, by decide, rfl, .inr ⟨1000, rfl, by decide⟩, rfl, rfl⟩,
    .inr ⟨1000, by decide, rfl, .inl rfl, rfl, rfl⟩⟩

/-- The steps of `XACT.WR` that pass before its second read step, one byte received. -/
def firstByteRead : List (StepKind × Byte) :=
  [(.start, 0), (.slaw, 0xA4), (.txd, 0xFE), (.start, 0), (.slar, 0xA5), (.rxa, 0)]

/-- With partial data, the second read step losing arbitration or not ready in time. -/
theorem witness_FailurePointEndsTransaction_partial :
    xactOperands (.xactWr 0x52 [0xFE] 2) = some (0x52, [0xFE], 2) ∧ (Instr.xactWr 0x52 [0xFE] 2).wf = true ∧
      plugged.Idle ∧
      transactionSteps 0x52 [0xFE] 2 = (passing firstByteRead).map (fun e => (e.kind, e.data)) ++ (.rxn, 0) :: [] ∧
      (∀ o ∈ [answered 0 0x38 0, ⟨some .never, none, none⟩],
        (scripted plugged (passingScript (passing firstByteRead) ++ [o])).LetsPass
          ((passing firstByteRead).map fun e => (e.kind, e.data)) (passing firstByteRead) (o :: [])) ∧
      plugged.NextFails .rxn (answered 0 0x38 0) (.ready 0 0x38 0) .arbitrationLost ∧
      plugged.NextFails .rxn ⟨some .never, none, none⟩ .notReady .timeout :=
  ⟨by decide, by decide, by decide, by decide, by decide, .inl ⟨_, _, _, rfl, by decide, rfl, by decide⟩,
    .inr ⟨1000, by decide, rfl, .inl rfl, rfl, rfl⟩⟩

theorem witness_FailurePointEndsTransaction :
    xactOperands (.xactW 0x52 [0xF0, 0x55]) = some (0x52, [0xF0, 0x55], 0) ∧
      (Instr.xactW 0x52 [0xF0, 0x55]).wf = true ∧
      transactionSteps 0x52 [0xF0, 0x55] 0 =
        (passing [(.start, 0), (.slaw, 0xA4)]).map (fun e => (e.kind, e.data)) ++
          (.txd, 0xF0) :: [(.txd, 0x55)] ∧
      (scripted plugged (passingScript (passing [(.start, 0), (.slaw, 0xA4)]) ++ [answered 999 0x30 0])).LetsPass
        ((passing [(.start, 0), (.slaw, 0xA4)]).map fun e => (e.kind, e.data))
        (passing [(.start, 0), (.slaw, 0xA4)]) (answered 999 0x30 0 :: []) ∧
      plugged.NextFails .txd (answered 999 0x30 0) (.ready 999 0x30 0) .dataNack ∧ plugged.Idle :=
  ⟨by decide, by decide, by decide, by decide, .inl ⟨_, _, _, rfl, by decide, rfl, by decide⟩, by decide⟩

theorem witness_TransactionIsTransact :
    xactOperands (.xactR 0x52 6) = some (0x52, [], 6) ∧ (Instr.xactR 0x52 6).wf = true ∧ plugged.Idle := by decide

theorem witness_CommandIsItsBusSteps :
    xactOperands (.xactW 0x52 [0x00]) = some (0x52, [0x00], 0) ∧ (Instr.xactW 0x52 [0x00]).wf = true ∧ plugged.Idle ∧
      plugged.phase = .idle ∧ plugged.pstep = .idle := by decide

/-- `TICK`, one step at a time: the redirect write has ended, and the next step begins the first handshake write. -/
theorem witness_CommandIsItsBusSteps_tick :
    plugged.Idle ∧ (acceptedTick plugged).phase = .wStart ∧ (acceptedTick plugged).pstep = .redirect ∧
      (stepped (stepped (stepped (acceptedTick plugged)))).phase = .idle ∧
      (stepped (stepped (stepped (stepped (acceptedTick plugged))))).pstep = .hs1 ∧
      (stepped (stepped (stepped (stepped (acceptedTick plugged))))).phase = .wStart := by decide +kernel

theorem witness_DirectTransactionsKeepTheSequencer :
    (xactOperands (.xactR 0x52 6)).isSome = true ∧ ∃ t, exec (.xactR 0x52 6) active = .next t := ⟨rfl, _, rfl⟩

theorem witness_ResultsOfEachOperation :
    ∀ i ∈ [Instr.xactInv 0x52, .xactW 0x52 [0x00], .xactR 0x52 2, .xactWr 0x52 [0x00] 2, .regwr 0x52 0xF0 [0x55],
        .regrd 0x52 0xFE 2],
      i.wf = true ∧ plugged.Idle ∧ (ran i plugged).hung = false := by decide +kernel

/-- `REGWR` and `REGRD` as the sequencer issues them, from a busy block. -/
theorem witness_ResultsOfEachOperation_busy :
    ∀ i ∈ [Instr.regwr 0x52 0xF0 [0x55], .regrd 0x52 0xFE 2],
      i.wf = true ∧ (ran i plugged.accept).hung = false ∧ plugged.accept.busy = true := by decide +kernel

theorem witness_FiniteWaitAlwaysResponds :
    plugged.params.waitLimit = .polls 1000 (by decide) ∧ plugged.Idle ∧
      ∀ i ∈ [Instr.tick, .xactInv 0x52, .xactW 0x52 [0x00], .xactR 0x10 6, .xactWr 0x52 [0x00] 6],
        i.wf = true ∧ (i = .tick ∨ (xactOperands i).isSome = true) := by decide

theorem witness_TransactionStepBound :
    xactOperands (.xactW 0x52 [0x00]) = some (0x52, [0x00], 0) ∧ (Instr.xactW 0x52 [0x00]).wf = true ∧
      ∃ t, exec (.xactW 0x52 [0x00]) plugged = .next t := ⟨rfl, rfl, _, rfl⟩

theorem witness_TransactionReleasesBusOnce :
    (xactOperands (.xactW 0x52 [0x00])).isSome = true ∧ (Instr.xactW 0x52 [0x00]).wf = true ∧
      (∀ a, Instr.xactW 0x52 [0x00] ≠ .xactInv a) ∧ plugged.Idle ∧
      (ran (.xactW 0x52 [0x00]) plugged).hung = false :=
  ⟨rfl, rfl, fun _ h => Instr.noConfusion h, by decide, by decide +kernel⟩

/-- A transaction that loses arbitration, and one that is not acknowledged. -/
theorem witness_TransactionReleasesBusOnce_fails :
    (scripted plugged (thenStatus 1 0x38)).Idle ∧
      (ran (.xactW 0x52 [0x00]) (scripted plugged (thenStatus 1 0x38))).hung = false ∧
      (ran (.xactW 0x52 [0x00]) (scripted plugged (thenStatus 1 0x38))).result = .arbitrationLost ∧
      (ran (.xactW 0x10 [0x00]) plugged).hung = false ∧ (ran (.xactW 0x10 [0x00]) plugged).result = .addressNack := by
  decide +kernel

theorem witness_TransactionStoresOnlyItsPayload :
    xactOperands (.xactW 0x52 [0xFF, 0x01]) = some (0x52, [0xFF, 0x01], 0) ∧ (Instr.xactW 0x52 [0xFF, 0x01]).wf = true ∧
      (∃ t, exec (.xactW 0x52 [0xFF, 0x01]) plugged = .next t) ∧ plugged.peripherals[0]? = some nunchuk ∧
      ¬(nunchuk.answersAt 0x52 = true ∧ reaches [0xFF, 0x01] 0x00) := by
  refine ⟨rfl, rfl, ⟨_, rfl⟩, rfl, ?_⟩
  rintro ⟨_, r, vs, h, j, hj, hx⟩
  obtain ⟨rfl, rfl⟩ := List.cons.inj h
  obtain rfl : j = 0 := by simpa using hj
  exact absurd hx (by decide)

theorem witness_RegwrExpandsToXactW : (Instr.regwr 0x52 0xF0 [0x55]).wf = true ∧ plugged.hung = false := by decide

theorem witness_RegrdExpandsByMode :
    (Instr.regrd 0x52 0xFE 255).wf = true ∧ plugged.hung = false ∧ plugged.params.regReadMode = .combined ∧
      State.hung { plugged with params := { v0 with regReadMode := .split } } = false := by decide

/-- Both outcomes of the pointer write in `split` mode. -/
theorem witness_RegrdExpandsByMode_split :
    (ran (.xactW 0x52 [0xFE]) { plugged with params := { v0 with regReadMode := .split } }).result = .ok ∧
      (ran (.xactW 0x10 [0xFE]) { plugged with params := { v0 with regReadMode := .split } }).result ≠ .ok := by
  decide +kernel

theorem witness_PassingRegisterWriteCompletes :
    (Instr.regwr 0x52 0xF0 [0x55]).wf = true ∧ (letting plugged (writeSteps 0x52 [0xF0, 0x55])).hung = false ∧
      (letting plugged (writeSteps 0x52 [0xF0, 0x55])).LetsPass (writeSteps 0x52 [0xF0, 0x55])
        (passing (writeSteps 0x52 [0xF0, 0x55])) [] := by decide

theorem witness_PassingRegisterReadCompletes :
    (Instr.regrd 0x52 0xFE 2).wf = true ∧ (letting plugged (readRegisterSteps 0x52 0xFE 2)).hung = false ∧
      (letting plugged (readRegisterSteps 0x52 0xFE 2)).LetsPass (readRegisterSteps 0x52 0xFE 2)
        (passing (readRegisterSteps 0x52 0xFE 2)) [] ∧ plugged.params.regReadMode = .combined ∧
      State.LetsPass { letting plugged (readRegisterSteps 0x52 0xFE 2) with
          params := { v0 with regReadMode := .split } } (readRegisterSteps 0x52 0xFE 2)
        (passing (readRegisterSteps 0x52 0xFE 2)) [] := by decide

theorem witness_RegisterWriteReachesPeripheral :
    (Instr.regwr 0x52 0xFF [0x01, 0x02]).wf = true ∧ plugged.hung = false ∧
      plugged.env = { ref := some { owned := false, peripherals := [nunchuk] }, script := [] } ∧ nunchuk.reg.wf ∧
      nunchuk.answersAt 0x52 = true ∧ nunchuk.redirectPending = false := by decide

/-- The secondary-type peripheral of program P3. -/
def motionPlus : Peripheral := { peripheral 0x53 [(0x00, 0x7D), (0x05, 0x82), (0xFF, 0x05)] with secondary := true }

theorem redirectedBy_motionPlus : motionPlus.redirectedBy v0 0xFE [0x04] := ⟨rfl, rfl, 0, by decide, by decide⟩

theorem not_redirectedBy_nunchuk : ¬nunchuk.redirectedBy v0 0xFE [0x04] := fun h => absurd h.1 (by decide)

theorem witness_RegisterWriteReachesPeripheral_redirect :
    (Instr.regwr 0x53 0xFE [0x04]).wf = true ∧ (withPeripherals [motionPlus]).hung = false ∧
      (withPeripherals [motionPlus]).env = { ref := some { owned := false, peripherals := [motionPlus] }, script := [] } ∧
      motionPlus.reg.wf ∧ motionPlus.answersAt 0x53 = true := by decide

/-- P3: it answers at the primary address after the redirect write. -/
theorem test_regwr_redirects :
    (ran (.regwr 0x53 0xFE [0x04]) (withPeripherals [motionPlus])).peripherals.map (·.paddr) = [0x52] := by
  decide +kernel

theorem witness_RegisterReadReturnsRegisters :
    (Instr.regrd 0x52 0xFE 255).wf = true ∧ plugged.hung = false ∧
      plugged.env = { ref := some { owned := false, peripherals := [nunchuk] }, script := [] } ∧
      nunchuk.answersAt 0x52 = true ∧ nunchuk.redirectPending = false ∧ plugged.params.regReadMode = .combined := by
  decide

/-- Between commands, `Uninitialized`, one tick to go. -/
def settlingTick : State :=
  { plugged with params := { v0 with settleTicks := 2 }, settle := 1, inbox := [0x80] }

theorem witness_SettleTickOnlyCountsDown :
    settlingTick.Idle ∧ settlingTick.pstate = .uninitialized ∧ 0 < settlingTick.settle ∧ settlingTick.pclass = .none ∧
      settlingTick.ident = 0 := by decide

theorem witness_SettleTicksPassWithoutBusActivity :
    settlingTick.Idle ∧ settlingTick.pstate = .uninitialized ∧ settlingTick.pclass = .none ∧ settlingTick.ident = 0 ∧
      1 ≤ settlingTick.settle ∧ settlingTick.inbox = List.replicate 1 0x80 := by decide

theorem inv_active : Inv active := by constructor <;> decide
theorem inv_plugged : Inv plugged := by constructor <;> decide
theorem inv_settlingTick : Inv settlingTick := by constructor <;> decide

/-- One state for each of the three rows of R154. -/
theorem witness_TickMovesAsTabulated :
    ∀ s ∈ [active, plugged, settlingTick], Inv s ∧ s.Idle ∧ s.params.fallthrough = true ∧ (ran .tick s).hung = false := by
  have h : ∀ s ∈ [active, plugged, settlingTick],
      s.Idle ∧ s.params.fallthrough = true ∧ (ran .tick s).hung = false := by decide +kernel
  intro s hs
  refine ⟨?_, h s hs⟩
  simp only [List.mem_cons, List.not_mem_nil, or_false] at hs
  rcases hs with rfl | rfl | rfl
  · exact inv_active
  · exact inv_plugged
  · exact inv_settlingTick

/-- The rows of R154 in which `INIT` fails, in which it succeeds and `POLL` fails, and in which `POLL` fails. -/
theorem witness_TickMovesAsTabulated_fails :
    (ran .tick (scripted plugged (thenStatus 1 0x38))).pstate = .uninitialized ∧
      (ran .tick (scripted plugged (thenStatus 1 0x38))).calibReset = false ∧
      (ran .tick (scripted plugged (thenStatus 22 0x20))).pstate = .uninitialized ∧
      (ran .tick (scripted plugged (thenStatus 22 0x20))).calibReset = true ∧
      (ran .tick (scripted active (thenStatus 1 0x20))).pstate = .uninitialized ∧
      (ran .tick (scripted active (thenStatus 1 0x20))).calibReset = true := by decide +kernel

/-- The states of these rows meet the hypotheses. -/
theorem witness_TickMovesAsTabulated_inv :
    Inv (scripted plugged (thenStatus 1 0x38)) ∧ Inv (scripted plugged (thenStatus 22 0x20)) ∧
      Inv (scripted active (thenStatus 1 0x20)) ∧
      ∀ s ∈ [scripted plugged (thenStatus 1 0x38), scripted plugged (thenStatus 22 0x20),
          scripted active (thenStatus 1 0x20)],
        s.Idle ∧ s.params.fallthrough = true ∧ (ran .tick s).hung = false :=
  ⟨by constructor <;> decide, by constructor <;> decide, by constructor <;> decide, by decide +kernel⟩

theorem witness_PassingPollDeliversSample :
    (letting active (readRegisterSteps 0x52 0x00 6)).hung = false ∧
      (letting active (readRegisterSteps 0x52 0x00 6)).LetsPass (readRegisterSteps active.params.addrPrimary 0x00 6)
        (passing (readRegisterSteps 0x52 0x00 6)) [] := by decide

/-- A `POLL` that ends `OK`. -/
theorem witness_PassingPollDeliversSample_ok :
    active.hung = false ∧ (ran .poll active).hung = false ∧ (ran .poll active).result = .ok := by decide +kernel

theorem witness_FailedPollDropsToUninitialized :
    active.hung = false ∧ (ran .poll (scripted active (thenStatus 1 0x20))).hung = false ∧
      (ran .poll (scripted active (thenStatus 1 0x20))).result ≠ .ok := by decide +kernel

/-- The steps of an `INIT` under `V0` that pass, the redirect write included. -/
def initPassing : List PassingStep := passing (redirectSteps v0) ++ passing (initSteps v0)

/-- A state in which they are about to pass, and then those of a report read. -/
def redirected (more : List PassingStep) : State := scripted plugged (passingScript (initPassing ++ more))

/-- The same with the redirect not acknowledged. -/
def unredirected : State :=
  scripted plugged (answered 999 0x08 0 :: answered 999 0x20 0 :: passingScript (passing (initSteps v0)))

theorem witness_PassingInitIdentifies :
    (redirected []).LetsInitPass (passingTokens (passing (redirectSteps v0)) ++ [stopToken]) (passing (initSteps v0))
        [] ∧
      unredirected.LetsInitPass [{ word := 0x000, reply := .ready 999 0x08 0 },
        { word := 0x1A6, reply := .ready 999 0x20 0 }, tokP] (passing (initSteps v0)) [] ∧
      (redirected []).hung = false ∧ unredirected.hung = false :=
  ⟨.inl ⟨passing (redirectSteps v0), by decide, by decide, rfl⟩,
    .inr ⟨999, 999, 0x08, 0, 0, by decide, by decide, by decide, by decide, by decide, by decide⟩, by decide,
    by decide⟩

/-- The trace of R143's example, the steps after the redirect:
`S A4+ F0+ 55+ P  S A4+ FB+ 00+ P  S A4+ FE+ Sr A5+ [5A]A [5A]N P` (every `S` but the first answered `10` here). -/
theorem test_init_tokens :
    (initTokens .combined (passing (initSteps v0))).map (·.word) =
      [0x000, 0x1A4, 0x2F0, 0x255, 0x500, 0x000, 0x1A4, 0x2FB, 0x200, 0x500,
        0x000, 0x1A4, 0x2FE, 0x000, 0x1A5, 0x300, 0x400, 0x500] ∧
      (readTokens .split (passing (readRegisterSteps 0x52 0xFE 2))).map (·.word) =
        [0x000, 0x1A4, 0x2FE, 0x500, 0x000, 0x1A5, 0x300, 0x400, 0x500] := by decide

theorem witness_InitIdentifiesOrLeavesIdentity :
    plugged.hung = false ∧ (ran .init plugged).hung = false ∧ (ran .init plugged).result = .ok ∧
      (ran .init (withPeripherals [])).hung = false ∧ (ran .init (withPeripherals [])).result ≠ .ok := by
  decide +kernel

/-- An `INIT` that fails at each of its four operations: the three results of R144 that fail it, both handshake writes
(I5 the second), and the identity read. The number of tokens: nothing is issued after the failing operation. -/
theorem witness_InitIdentifiesOrLeavesIdentity_fails :
    ∀ e ∈ [(⟨none, none, none⟩ :: ⟨none, some 0x18, none⟩ :: thenStatus 0 0x30, 4), (thenStatus 1 0x38, 3),
        (thenStatus 1 0x00, 3), (thenStatus 3 0x20, 6), (thenStatus 9 0x30, 13), (thenStatus 16 0x38, 21)],
      (ran .init (scripted plugged e.1)).hung = false ∧ (ran .init (scripted plugged e.1)).result ≠ .ok ∧
        (ran .init (scripted plugged e.1)).trace.length = e.2 := by decide +kernel

theorem witness_PassingTickIdentifiesAndPolls :
    ∃ (s : State) (redirect : List Token) (l m : List PassingStep), s.Idle ∧ s.pstate = .uninitialized ∧ s.settle = 0 ∧
      s.params.fallthrough = true ∧ s.LetsInitPass redirect l (passingScript m ++ []) ∧
      m.map (fun e => (e.kind, e.data)) = readRegisterSteps s.params.addrPrimary 0x00 6 ∧
      ∀ e ∈ m, allows s.params.waitLimit e.wait = true ∧ passes e.kind e.status = true :=
  ⟨redirected (passing (readRegisterSteps 0x52 0 6)), _, passing (initSteps v0), passing (readRegisterSteps 0x52 0 6),
    by decide, rfl, rfl, rfl, .inl ⟨passing (redirectSteps v0), by decide, by decide, rfl⟩, by decide, by decide⟩

theorem witness_PassingTickPolls :
    (letting active (readRegisterSteps 0x52 0x00 6)).Idle ∧
      (letting active (readRegisterSteps 0x52 0x00 6)).pstate = .active ∧
      (letting active (readRegisterSteps 0x52 0x00 6)).LetsPass (readRegisterSteps active.params.addrPrimary 0x00 6)
        (passing (readRegisterSteps 0x52 0x00 6)) [] := by decide

theorem witness_TickIdentifiesAttachedPeripheral :
    Inv plugged ∧ plugged.Idle ∧ plugged.pstate = .uninitialized ∧ plugged.settle = 0 ∧
      plugged.params.fallthrough = true ∧
      plugged.env = { ref := some { owned := false, peripherals := [nunchuk] }, script := [] } ∧
      nunchuk.answersAt plugged.params.addrPrimary = true :=
  ⟨inv_plugged, by decide⟩

/-- The same with the peripheral of program P3 at the secondary address. -/
theorem witness_TickIdentifiesAttachedPeripheral_secondary :
    Inv (withPeripherals [motionPlus]) ∧ (withPeripherals [motionPlus]).Idle ∧
      (withPeripherals [motionPlus]).env = { ref := some { owned := false, peripherals := [motionPlus] }, script := [] } ∧
      motionPlus.answersAt v0.addrSecondary = true ∧ motionPlus.secondary = true :=
  ⟨by constructor <;> decide, by decide⟩

/-- P3, first `TICK`. -/
theorem test_tick_redirects :
    (ran .tick (withPeripherals [motionPlus])).responses =
      [[0x37, 0x04, 0x05, 0x7D, 0x00, 0x00, 0x00, 0x00, 0x82]] := by decide +kernel

theorem witness_SequencerFrame :
    ∀ i ∈ [Instr.tick, .init, .poll, .regrd 0x52 0x00 6, .regwr 0x52 0xF0 [0x55]], ∃ t, exec i plugged = .next t := by
  intro i hi
  simp only [List.mem_cons, List.not_mem_nil, or_false] at hi
  rcases hi with rfl | rfl | rfl | rfl | rfl <;> exact ⟨_, rfl⟩

theorem witness_SequencerFrame_regwr :
    (Instr.regwr 0x10 0xF0 [0x55]).wf = true ∧ plugged.peripherals[0]? = some nunchuk ∧
      ¬(nunchuk.answersAt 0x10 = true ∧ reaches (0xF0 :: [0x55]) 0xF0) :=
  ⟨rfl, rfl, fun h => absurd h.1 (by decide)⟩

theorem witness_TickResponseLayout : active.Idle ∧ (ran .tick active).hung = false ∧
    (ran .tick active).sampleValid = true ∧ settlingTick.Idle ∧ (ran .tick settlingTick).hung = false ∧
    (ran .tick settlingTick).sampleValid = false := by decide +kernel

theorem witness_ClassifyByIdentityCode :
    (0x0000 : IdentCode) = v0.idNunchuk ∧ (0x0101 : IdentCode) = v0.idClassic ∧ (0x0405 : IdentCode) = v0.idMotionPlus ∧
      (0xFFFF : IdentCode) ≠ v0.idNunchuk ∧ (0xFFFF : IdentCode) ≠ v0.idClassic ∧
      (0xFFFF : IdentCode) ≠ v0.idMotionPlus := by decide

/-- The same block with another byte beyond `RCOUNT`, another `waitcnt` and another operand register. -/
theorem witness_NothingDependsOnUnspecifiedValues :
    ∃ s t u : State, Inv s ∧ Inv t ∧ Agree s t ∧ s ≠ t ∧ step s = .next u :=
  ⟨{ plugged with inbox := [0x80] },
    { plugged with inbox := [0x80], rbuf := plugged.rbuf.set 0 0xA5, waitcnt := 7, addr := 0x10 }, _,
    inv_tick_presented, by constructor <;> decide, by constructor <;> decide +kernel, by decide +kernel, rfl⟩

end Sys2Proof.Tests
end

/-! The engine's bus steps: what one of them can do, and that a transaction comes to its end. -/

namespace Sys2Proof.Machine

open Config

/-- What the engine's bus step does when it passes with the received byte `rx`, by the phase it was issued in
(41_transaction.md R120). -/
def State.afterPass (t : State) (rx : Byte) : State :=
  match t.phase with
  | .wStart => { t with phase := .wAddr }
  | .wAddr => { t with idx := 0, phase := .wData }
  | .wData => { t with idx := t.idx + 1, phase := afterTxd { t with idx := t.idx + 1 } }
  | .rStart => { t with phase := .rAddr }
  | .rAddr => { t with idx := 0, phase := .rData }
  | .rData =>
    { t.storeReceived rx with phase := if t.idx.toNat + 1 < t.rlen.toNat then .rData else .stopping }
  | .idle => t
  | .stopping => t
  | .rearming => t

/-- In a waiting phase the engine issues a waiting step whose effect of `PASS` is that of the phase. -/
theorem issue_eq_waitingStep {s : State} (hw : s.phase.waits = true) :
    ∃ k d f, issue s = s.waitingStep k d f ∧ ∀ rx, f rx (s.busWait k d) = (s.busWait k d).afterPass rx := by
  cases hp : s.phase <;> simp only [hp, Phase.waits, Bool.false_eq_true] at hw <;> simp only [issue, hp]
  case wStart => exact ⟨_, _, _, rfl, fun rx => by simp [State.afterPass, hp]⟩
  case wAddr => exact ⟨_, _, _, rfl, fun rx => by simp [State.afterPass, hp]⟩
  case wData => exact ⟨_, _, _, rfl, fun rx => by simp [State.afterPass, hp]⟩
  case rStart => split <;> exact ⟨_, _, _, rfl, fun rx => by simp [State.afterPass, hp]⟩
  case rAddr => exact ⟨_, _, _, rfl, fun rx => by simp [State.afterPass, hp]⟩
  case rData => split <;> exact ⟨_, _, _, rfl, fun rx => by simp [State.afterPass, *]⟩

/-- The bus step of a waiting phase passes, raises, or hangs. -/
theorem issue_waits {s : State} (hh : s.hung = false) (hw : s.phase.waits = true) : ∃ k d,
    (∃ rx, (s.busWait k d).hung = false ∧ issue s = (s.busWait k d).afterPass rx) ∨
      (∃ c, c ≠ .ok ∧ c ≠ .invalidArgument ∧ (s.busWait k d).hung = false ∧ issue s = (s.busWait k d).raise c) ∨
      (s.params.waitLimit = .inf ∧ (s.busWait k d).hung = true ∧ issue s = s.busWait k d) := by
  obtain ⟨k, d, f, hi, hf⟩ := issue_eq_waitingStep hw
  refine ⟨k, d, ?_⟩
  rcases waitingStep_cases s k d f hh with ⟨_, _, rx, _, _, hn, e⟩ | ⟨c, hc, hc', hn, _, e⟩ | ⟨_, hl, hn, e⟩
  · exact .inl ⟨rx, hn, by rw [hi, e, hf]⟩
  · exact .inr (.inl ⟨c, hc, hc', hn, hi.trans e⟩)
  · exact .inr (.inr ⟨hl, hn, hi.trans e⟩)

/-- A recovery phase releases the bus and ends the transaction (40_bus_steps.md R98, R99). -/
theorem issue_releases {s : State} (hh : s.hung = false) (hp : s.phase = .stopping ∨ s.phase = .rearming) :
    ∃ k, issue s = { s.busRelease k with phase := .idle } := by
  rcases hp with hp | hp <;> simp only [issue, hp, busStop, busRearm, State.releaseStep, hh] <;> exact ⟨_, rfl⟩

theorem Phase.waits_or_releases {p : Phase} (h : p ≠ .idle) : p.waits = true ∨ p = .stopping ∨ p = .rearming := by
  cases p <;> simp_all [Phase.waits]

/-- The bus steps from the end of the write phase to the end of the transaction, when all pass. -/
def State.stepsAfterWrite (s : State) : Nat := if s.rlen = 0 then 1 else s.rlen.toNat + 3

/-- The bus steps to the end of the transaction, when all pass (41_transaction.md R119). -/
def State.stepsLeft (s : State) : Nat :=
  match s.phase with
  | .idle => 0
  | .wStart => (s.wlen.toNat - 1) + 3 + s.stepsAfterWrite
  | .wAddr => (s.wlen.toNat - 1) + 2 + s.stepsAfterWrite
  | .wData => (s.wlen.toNat - (s.idx + 1).toNat) + 1 + s.stepsAfterWrite
  | .rStart => (s.rlen.toNat - 1) + 4
  | .rAddr => (s.rlen.toNat - 1) + 3
  | .rData => (s.rlen.toNat - (s.idx.toNat + 1)) + 2
  | .stopping => 1
  | .rearming => 1

theorem stepsLeft_raise_lt {s : State} (c : Result) (hw : s.phase.waits = true) :
    (s.raise c).stepsLeft < s.stepsLeft := by
  have h1 : (s.raise c).stepsLeft = 1 := by
    rcases recoveryPhase_eq c with ⟨_, e⟩ | ⟨_, e⟩ <;> simp [State.stepsLeft, e]
  have h2 : 1 ≤ s.stepsAfterWrite := by unfold State.stepsAfterWrite; split <;> omega
  rw [h1]
  cases hp : s.phase <;> simp only [hp, Phase.waits, Bool.false_eq_true] at hw <;>
    simp only [State.stepsLeft, hp] <;> omega

theorem stepsLeft_afterPass_lt {s : State} (rx : Byte) (hw : s.phase.waits = true) :
    (s.afterPass rx).stepsLeft < s.stepsLeft := by
  cases hp : s.phase <;> simp only [hp, Phase.waits, Bool.false_eq_true] at hw <;>
    simp only [State.afterPass, State.stepsLeft, hp, State.stepsAfterWrite]
  case wStart => omega
  case wAddr => simp
  case wData =>
    have hl := s.wlen.isLt
    by_cases hi : (s.idx + 1).toNat < s.wlen.toNat
    · have e := toNat_add_one (b := s.idx + 1) (by omega)
      simp only [afterTxd, hi, ↓reduceIte, e]
      omega
    · by_cases hr : s.rlen = 0
      · simp only [afterTxd, hi, hr, ne_eq, not_true_eq_false, ↓reduceIte]
        omega
      · have hr' : s.rlen.toNat ≠ 0 := fun e => hr (BitVec.eq_of_toNat_eq e)
        simp only [afterTxd, hi, hr, ne_eq, not_false_eq_true, ↓reduceIte]
        omega
  case rStart => omega
  case rAddr => simp
  case rData =>
    have hl := s.rlen.isLt
    by_cases hi : s.idx.toNat + 1 < s.rlen.toNat
    · have e := toNat_add_one (b := s.idx) (by omega)
      simp only [hi, ↓reduceIte, State.storeReceived_idx, State.storeReceived_rlen, e]
      omega
    · simp [hi]

/-- Every bus step of a transaction brings it nearer to its end, or hangs. -/
theorem issue_stepsLeft {s : State} (hh : s.hung = false) (hp : s.phase ≠ .idle) :
    (issue s).hung = true ∨ (issue s).stepsLeft < s.stepsLeft := by
  rcases Phase.waits_or_releases hp with hw | hr
  · obtain ⟨k, d, ⟨rx, _, e⟩ | ⟨c, _, _, _, e⟩ | ⟨_, hn, e⟩⟩ := issue_waits hh hw
    · exact .inr (e ▸ stepsLeft_afterPass_lt (s := s.busWait k d) rx hw)
    · exact .inr (e ▸ stepsLeft_raise_lt (s := s.busWait k d) c hw)
    · exact .inl (e ▸ hn)
  · obtain ⟨k, e⟩ := issue_releases hh hr
    rcases hr with hr | hr <;> exact .inr (by simp [e, State.stepsLeft, hr])

/-- Enough bus steps bring a transaction to its end, or to a hang. -/
theorem engine_ends {n : Nat} {s : State} (h : s.stepsLeft ≤ n) :
    (engine n s).hung = true ∨ (engine n s).phase = .idle := by
  induction n generalizing s with
  | zero =>
    have h0 : s.stepsLeft = 0 := Nat.le_zero.mp h
    cases hp : s.phase <;> simp [State.stepsLeft, hp] at h0
    exact .inr hp
  | succ n ih =>
    by_cases hh : s.hung = true
    · exact .inl (by rw [engine_hung hh]; exact hh)
    by_cases hp : s.phase = .idle
    · exact .inr (by rw [engine_idle hp]; exact hp)
    rw [Bool.not_eq_true] at hh
    rw [engine_succ hh hp]
    rcases issue_stepsLeft hh hp with hn | hlt
    · exact .inl (by rw [engine_hung hn]; exact hn)
    · exact ih (by omega)

theorem payloadLength_ne_zero {p : List Byte} (h : p ≠ []) (hl : p.length ≤ maxLen) : BitVec.ofNat 8 p.length ≠ 0 := by
  have hpos := List.length_pos_iff.mpr h
  intro e
  have := congrArg BitVec.toNat e
  simp [maxLen] at this hl
  omega

/-- `stepBound` bounds the steps of a transaction that was just begun (41_transaction.md R119). -/
theorem beginTransaction_stepsLeft (a : BusAddr) {p : List Byte} (n : Byte) (s : State) (hne : ¬(p = [] ∧ n = 0))
    (hl : p.length ≤ maxLen) :
    (s.beginTransaction a p n).stepsLeft ≤ (s.beginTransaction a p n).stepBound := by
  by_cases hp : p = []
  · have hn : n ≠ 0 := fun e => hne ⟨hp, e⟩
    simp only [State.stepsLeft, State.beginTransaction_phase, hp, hn, ↓reduceIte, State.stepBound]
    omega
  · have hw : (BitVec.ofNat 8 p.length).toNat ≠ 0 := fun e =>
      payloadLength_ne_zero hp hl (BitVec.eq_of_toNat_eq e)
    simp only [State.stepsLeft, State.beginTransaction_phase, hp, ↓reduceIte, State.stepBound,
      State.beginTransaction_wlen, State.stepsAfterWrite]
    split <;> omega

/-- A transaction comes to its end, or hangs (41_transaction.md R117, 60_exceptions.md R183). -/
theorem transact_ends (a : BusAddr) {p : List Byte} (n : Byte) (s : State) (hne : ¬(p = [] ∧ n = 0))
    (hl : p.length ≤ maxLen) : (transact a p n s).hung = true ∨ (transact a p n s).phase = .idle := by
  unfold transact
  split
  · exact .inl ‹_›
  · exact engine_ends (beginTransaction_stepsLeft a n s hne hl)

end Sys2Proof.Machine

/-! What one step of the machine does, and what a busy block accepts. -/

namespace Sys2Proof.Machine

open Config

/-! ## The instructions of the host interface -/

/-- The four `XACT` commands are one direct transaction each, by their operands (41_transaction.md R111 to R114). -/
theorem exec_xact {i : Instr} {a : BusAddr} {p : List Byte} {n : Byte} (h : xactOperands i = some (a, p, n))
    (s : State) : exec i s = .next (directTransaction a p n s) := by
  cases i <;> simp only [xactOperands, Option.some.injEq, Prod.mk.injEq, reduceCtorEq] at h <;>
    obtain ⟨rfl, rfl, rfl⟩ := h <;> rfl

theorem xactOperands_length {i : Instr} {a : BusAddr} {p : List Byte} {n : Byte}
    (h : xactOperands i = some (a, p, n)) (hw : i.wf = true) : p.length ≤ maxLen := by
  cases i <;> simp only [xactOperands, Option.some.injEq, Prod.mk.injEq, reduceCtorEq] at h <;>
    obtain ⟨rfl, rfl, rfl⟩ := h <;> simp_all [Instr.wf]

theorem whenIdle_busy {s : State} (h : s.busy = true) (t : State) : s.whenIdle t = s := by
  simp [State.whenIdle, h]

theorem whenIdle_idle {s : State} (h : s.Idle) (t : State) : s.whenIdle t = t := by
  simp [State.whenIdle, h.1, h.2]

/-- A busy block takes up no host command (10_state.md R20, U9). -/
theorem exec_hostCommand_busy {s : State} {i : Instr} (hb : s.busy = true)
    (hi : i = .tick ∨ (xactOperands i).isSome = true) : exec i s = .next s := by
  rcases hi with rfl | hi
  · exact congrArg _ (whenIdle_busy hb _)
  · obtain ⟨⟨a, p, n⟩, h⟩ := Option.isSome_iff_exists.mp hi
    rw [exec_xact h]
    exact congrArg _ (whenIdle_busy hb _)

/-! ## One step -/

theorem step_hung {s : State} (h : s.hung = true) : step s = .next s := by simp [step, State.fetch, h]

theorem step_command {s : State} {i : Instr} {rest : List Byte} (hs : s.Idle)
    (h : decodeHost s.inbox = .command i rest) : step s = exec i { s with inbox := rest } := by
  simp [step, State.fetch, hs.1, hs.2, h]

theorem step_reserved {s : State} {b : Byte} {rest : List Byte} (hs : s.Idle)
    (h : decodeHost s.inbox = .reserved b rest) : step s = .next (State.rejectReserved { s with inbox := rest }) := by
  simp [step, State.fetch, hs.1, hs.2, h]

theorem step_incomplete {s : State} (hs : s.Idle) (h : decodeHost s.inbox = .incomplete) : step s = .next s := by
  simp [step, State.fetch, hs.1, hs.2, h]

theorem step_issued {s : State} {i : Instr} (hb : s.busy = true) (hh : s.hung = false) (h : s.issued = some i) :
    step s = exec i s := by
  simp [step, State.fetch, hb, hh, h]

/-- A busy block hangs, issues the bus step of its phase, or goes on between two transactions. -/
theorem step_busy {s t : State} (hb : s.busy = true) (h : step s = .next t) :
    (s.hung = true ∧ t = s) ∨ (s.hung = false ∧ s.phase ≠ .idle ∧ t = issue s) ∨
      (s.hung = false ∧ s.phase = .idle ∧ t = resume s) := by
  cases hh : s.hung
  · by_cases hp : s.phase = .idle
    · rw [step_resume hb hh hp] at h
      exact .inr (.inr ⟨rfl, hp, (Host.Outcome.next.inj h).symm⟩)
    · rw [step_issue hb hh hp] at h
      exact .inr (.inl ⟨rfl, hp, (Host.Outcome.next.inj h).symm⟩)
  · rw [step_hung hh] at h
    exact .inl ⟨rfl, (Host.Outcome.next.inj h).symm⟩

/-! ## The presented bytes while the block is busy (10_state.md R20) -/

@[simp] theorem issue_inbox (s : State) : (issue s).inbox = s.inbox :=
  issue_keeps State.inbox (by simp) (by simp) (by simp) (by simp) (by simp) s

@[simp] theorem respondXact_inbox (s : State) : (respondXact s).inbox = s.inbox := by
  unfold respondXact; split <;> simp

@[simp] theorem respondTick_inbox (s : State) : (respondTick s).inbox = s.inbox := by
  unfold respondTick; split <;> simp

@[simp] theorem failTick_inbox (s : State) : (failTick s).inbox = s.inbox := by simp [failTick]

@[simp] theorem pollEnd_inbox (s : State) : (pollEnd s).inbox = s.inbox := by
  unfold pollEnd; split <;> [skip; split] <;> simp

@[simp] theorem afterIdent_inbox (s : State) : (afterIdent s).2.inbox = s.inbox := by
  unfold afterIdent; split <;> [skip; split] <;> simp [initFails]

@[simp] theorem resumeInit_inbox (r : Bool × State) : (resumeInit r).inbox = r.2.inbox := by
  unfold resumeInit; split <;> [split; skip] <;> simp [beginPoll]

@[simp] theorem resume_inbox (s : State) : (resume s).inbox = s.inbox := by
  unfold resume
  split <;> [skip; split; split; split; split; skip; split; skip] <;> simp [initFails]

/-- Settles O11: an idle block's `fetch` is the decoded command, with its bytes consumed. -/
theorem stepRunsDecodedCommand : Obligations.StepRunsDecodedCommand := fun _ _ _ hs h => step_command hs h

theorem State.wbufAt_eq_getElem (s : State) {i : Byte} (h : i.toNat < 255) : s.wbufAt i = s.wbuf[i.toNat] := by
  simp [State.wbufAt, List.getD, Vector.toList, h]

/-- Settles O12: in each phase `State.issued` names the bus step. -/
theorem stepIssuesBusStepOfPhase : Obligations.StepIssuesBusStepOfPhase := by
  intro s hb hh
  have run : ∀ {i}, s.issued = some i → step s = exec i s := step_issued hb hh
  exact ⟨fun hp => run (by simp only [State.issued, hp]),
    fun hp => run (by simp only [State.issued, hp]),
    fun hp hi => run (by simp only [State.issued, hp, s.wbufAt_eq_getElem hi]),
    fun hp hw => run (by simp only [State.issued, hp, if_pos hw]),
    fun hp hw => run (by simp only [State.issued, hp, if_neg hw]),
    fun hp => run (by simp only [State.issued, hp]),
    fun hp hi => run (by simp only [State.issued, hp, if_pos hi]),
    fun hp hi => run (by simp only [State.issued, hp, hi, Nat.lt_irrefl, ↓reduceIte]),
    fun hp => run (by simp only [State.issued, hp]),
    fun hp => run (by simp only [State.issued, hp])⟩

/-- Settles O16: a host command needs an idle block, and neither a bus step nor a move of the sequencer takes bytes. -/
theorem busyBlockAcceptsNothing : Obligations.BusyBlockAcceptsNothing := by
  refine fun s hb => ⟨fun i hi => exec_hostCommand_busy hb hi, fun t h => ?_⟩
  rcases step_busy hb h with ⟨_, rfl⟩ | ⟨_, _, rfl⟩ | ⟨_, _, rfl⟩ <;> simp

end Sys2Proof.Machine

/-! A host command is the run of its bus steps and of the sequencer's moves, from its acceptance. -/

namespace Sys2Proof.Machine

open Config

/-! ## Runs of a busy block -/

/-- One step of a block that is busy and does not hang: a bus step, or a move of the sequencer. -/
def BusyStep (s t : State) : Prop := s.busy = true ∧ s.hung = false ∧ step s = .next t

/-- Any number of steps, each of them of a busy block. -/
abbrev BusyRun : State → State → Prop := Relation.ReflTransGen BusyStep

/-- A block between two transactions of a command. -/
structure Between (s : State) : Prop where
  busy : s.busy = true
  hung : s.hung = false
  phase : s.phase = .idle

theorem exists_run_of_busyRun {s t : State} (h : BusyRun s t) : ∃ k, Sys2Proof.core.run k s = .next t := by
  induction h with
  | refl => exact ⟨0, rfl⟩
  | @tail u v _ hs ih =>
    obtain ⟨k, hk⟩ := ih
    have hv : Sys2Proof.core.step u = .next v := hs.2.2
    exact ⟨k + 1, (run_add hk).trans (by simp only [Host.Core.run, hv])⟩

theorem busyRun_issue {s : State} (hb : s.busy = true) (hh : s.hung = false) (hp : s.phase ≠ .idle) :
    BusyRun s (issue s) := .single ⟨hb, hh, step_issue hb hh hp⟩

theorem busyRun_resume {s : State} (h : Between s) : BusyRun s (resume s) :=
  .single ⟨h.busy, h.hung, step_resume h.busy h.hung h.phase⟩

theorem busyRun_engine (n : Nat) {s : State} (hb : s.busy = true) : BusyRun s (engine n s) :=
  (engine_induct (P := fun t => BusyRun s t ∧ t.busy = true)
    (fun t ⟨hr, ht⟩ hh hp => ⟨hr.trans (busyRun_issue ht hh hp), by simpa using ht⟩) n s ⟨.refl, hb⟩).1

/-- A command that goes on after a transaction as `f` runs step by step, if `f` leaves a block that hangs and the next
move of the sequencer leads to `f`. -/
theorem busyRun_transact_then {s : State} {a : BusAddr} {p : List Byte} {n : Byte} {f : State → State}
    (hb : s.busy = true) (hh : s.hung = false) (hne : ¬(p = [] ∧ n = 0)) (hl : p.length ≤ maxLen)
    (hang : ∀ t, t.hung = true → f t = t)
    (go : ∀ t, Between t → t.pstep = s.pstep → t.params = s.params → BusyRun (resume t) (f t)) :
    BusyRun (s.beginTransaction a p n) (f (transact a p n s)) := by
  have hrun : BusyRun (s.beginTransaction a p n) (transact a p n s) := by
    simp only [transact, hh, Bool.false_eq_true, ↓reduceIte, if_neg hne]
    exact busyRun_engine _ (by simpa using hb)
  cases ht : (transact a p n s).hung
  · have hi : (transact a p n s).phase = .idle := (transact_ends a n s hne hl).resolve_left (by simp [ht])
    have hbetween : Between (transact a p n s) := ⟨by simpa using hb, ht, hi⟩
    exact hrun.trans ((busyRun_resume hbetween).trans (go _ hbetween (by simp) (by simp)))
  · rwa [hang _ ht]

/-! ## Direct transactions -/

theorem respondXact_hung {s : State} (h : s.hung = true) : respondXact s = s := by simp [respondXact, h]

theorem respondTick_hung {s : State} (h : s.hung = true) : respondTick s = s := by simp [respondTick, h]

theorem resume_idle {s : State} (h : s.pstep = .idle) : resume s = respondXact s := by simp [resume, h]

/-- An accepted direct transaction runs step by step to its response (41_transaction.md R120, R121). -/
theorem busyRun_directTransaction {s : State} (a : BusAddr) {p : List Byte} (n : Byte) (hs : s.Idle)
    (hp : s.phase = .idle) (hq : s.pstep = .idle) (hl : p.length ≤ maxLen) :
    BusyRun (accepted a p n s) (directTransaction a p n s) := by
  rw [directTransaction, whenIdle_idle hs, accepted]
  by_cases hne : p = [] ∧ n = 0
  · obtain ⟨rfl, rfl⟩ := hne
    have ht : transact a [] 0 s.accept = s.accept.beginTransaction a [] 0 := by simp [transact, hs.2]
    rw [ht, ← resume_idle (by simpa using hq)]
    exact busyRun_resume ⟨by simp, by simpa using hs.2, by simpa using hp⟩
  · refine busyRun_transact_then rfl hs.2 hne hl (fun t => respondXact_hung) fun t _ hq' _ => ?_
    rw [resume_idle (hq'.trans hq)]

/-! ## Register reads, `POLL` and `INIT` -/

@[simp] theorem PStep.readHalf_ident : PStep.ident.readHalf = .identRd := rfl
@[simp] theorem PStep.readHalf_poll : PStep.poll.readHalf = .pollRd := rfl

theorem readHalf_eq {t : State} (a : BusAddr) (n : Byte) (hh : t.hung = false) :
    readHalf a n t = if t.halfRead then transact a [] n { t with pstep := t.pstep.readHalf } else t := by
  unfold readHalf State.halfRead
  cases t.params.regReadMode
  · simp
  · cases t.result <;> simp [hh]

theorem readHalf_hung {t : State} (a : BusAddr) (n : Byte) (hh : t.hung = true) : readHalf a n t = t := by
  unfold readHalf; split <;> simp [hh]

/-- A command that goes on after a register read as `f` runs step by step, if the sequencer begins the second half of a
`split` read (42_register_protocol.md R132) and its move after the read leads to `f`. -/
theorem busyRun_regrd_then {s : State} {a : BusAddr} {r n : Byte} {f : State → State}
    (hb : s.busy = true) (hh : s.hung = false) (hn : n ≠ 0) (hang : ∀ t, t.hung = true → f t = t)
    (half : ∀ t, t.pstep = s.pstep → t.params = s.params → t.halfRead = true →
      resume t = State.beginTransaction { t with pstep := t.pstep.readHalf } a [] n)
    (go : ∀ t, Between t → t.pstep = s.pstep ∧ t.halfRead = false ∨ t.pstep = s.pstep.readHalf →
      BusyRun (resume t) (f t)) :
    BusyRun (s.beginRead a r n) (f (regrd a r n s)) := by
  have run : ∀ m, BusyRun (s.beginTransaction a [r] m) (f (readHalf a n (transact a [r] m s))) := fun m => by
    refine busyRun_transact_then (f := fun t => f (readHalf a n t)) hb hh (by simp) (by simp [maxLen])
      (fun t ht => by rw [readHalf_hung _ _ ht, hang t ht]) fun t ht hq hp => ?_
    rw [readHalf_eq _ _ ht.hung]
    cases hr : t.halfRead
    · exact go t ht (.inl ⟨hq, hr⟩)
    · rw [half t hq hp hr]
      exact busyRun_transact_then ht.busy ht.hung (fun h => hn h.2) (by simp [maxLen]) hang
        fun u hu hq' _ => go u hu (.inr (by rw [hq', hq]))
  unfold State.beginRead regrd pointerHalf
  cases s.params.regReadMode <;> exact run _

theorem pollEnd_hung {s : State} (h : s.hung = true) : pollEnd s = s := by simp [pollEnd, h]

/-- `POLL`, with which a `TICK` ends, runs step by step (43_identification.md R150). -/
theorem busyRun_poll {s : State} (hb : s.busy = true) (hh : s.hung = false) :
    BusyRun (beginPoll s) (respondTick (poll s)) := by
  refine busyRun_regrd_then (f := fun t => respondTick (pollEnd t)) hb hh (by decide)
    (fun t ht => by rw [pollEnd_hung ht, respondTick_hung ht]) (fun t hq hp hr => ?_) fun t ht hq => ?_
  · simp only at hq hp
    simp [resume, hq, hr, hp]
  · have hres : resume t = respondTick (pollEnd t) := by
      rcases hq with ⟨hq, hr⟩ | hq <;> simp only [PStep.readHalf_poll] at hq <;> simp [resume, *]
    rw [hres]

/-- What a `TICK` does after `INIT` runs step by step (43_identification.md R147 to R149). -/
theorem busyRun_finishInit {r : Bool × State} (hb : r.2.busy = true) (hh : r.2.hung = false) :
    BusyRun (resumeInit r) (finishInit r) := by
  unfold resumeInit finishInit
  simp only [hh, Bool.false_eq_true, ↓reduceIte]
  split
  · split
    · exact busyRun_poll hb hh
    · exact .refl
  · exact .refl

theorem busyRun_initFails {s : State} (h : Between s) : BusyRun (resumeInit (initFails s)) (finishInit (initFails s)) :=
  busyRun_finishInit h.busy h.hung

@[simp] theorem afterIdent_busy (s : State) : (afterIdent s).2.busy = s.busy := by
  unfold afterIdent; split <;> [rfl; split <;> rfl]

@[simp] theorem afterIdent_hung (s : State) : (afterIdent s).2.hung = s.hung := by
  unfold afterIdent; split <;> [rfl; split <;> rfl]

/-- `INIT` from its identity read on (43_identification.md R146). -/
theorem busyRun_identRead {s : State} (hb : s.busy = true) (hh : s.hung = false) :
    BusyRun (State.beginRead { s with pstep := .ident } s.params.addrPrimary regIdent identLen)
      (finishInit (afterIdent (regrd s.params.addrPrimary regIdent identLen { s with pstep := .ident }))) := by
  refine busyRun_regrd_then (f := fun t => finishInit (afterIdent t)) hb hh (by decide)
    (fun t ht => by simp [afterIdent, finishInit, ht]) (fun t hq hp hr => ?_) fun t ht hq => ?_
  · simp only at hq hp
    simp [resume, hq, hr, hp]
  · have hres : resume t = resumeInit (afterIdent t) := by
      rcases hq with ⟨hq, hr⟩ | hq <;> simp only [PStep.readHalf_ident] at hq <;> simp [resume, *]
    rw [hres]
    exact busyRun_finishInit (by simpa using ht.busy) (by simpa using ht.hung)

/-- `INIT` from its second handshake write on (43_identification.md R145). -/
theorem busyRun_hs2 {s : State} (hb : s.busy = true) (hh : s.hung = false) :
    BusyRun (State.beginTransaction { s with pstep := .hs2 } s.params.addrPrimary [regInit2, valInit2] 0)
      (finishInit (afterHs2 (regwr s.params.addrPrimary regInit2 [valInit2] { s with pstep := .hs2 }))) := by
  refine busyRun_transact_then (f := fun t => finishInit (afterHs2 t)) hb hh (by simp) (by simp [maxLen])
    (fun t ht => by simp [afterHs2, finishInit, ht]) fun t ht hq _ => ?_
  by_cases hr : t.result = .ok
  · simpa [resume, hq, afterHs2, ht.hung, hr] using busyRun_identRead ht.busy ht.hung
  · simpa [resume, hq, afterHs2, ht.hung, hr] using busyRun_initFails ht

/-- `INIT` from its first handshake write on (43_identification.md R145). -/
theorem busyRun_hs1 {s : State} (hb : s.busy = true) (hh : s.hung = false) :
    BusyRun (State.beginTransaction { s with pstep := .hs1 } s.params.addrPrimary [regInit1, valInit1] 0)
      (finishInit (afterHs1 (regwr s.params.addrPrimary regInit1 [valInit1] { s with pstep := .hs1 }))) := by
  refine busyRun_transact_then (f := fun t => finishInit (afterHs1 t)) hb hh (by simp) (by simp [maxLen])
    (fun t ht => by simp [afterHs1, finishInit, ht]) fun t ht hq _ => ?_
  by_cases hr : t.result = .ok
  · simpa [resume, hq, afterHs1, ht.hung, hr] using busyRun_hs2 ht.busy ht.hung
  · simpa [resume, hq, afterHs1, ht.hung, hr] using busyRun_initFails ht

/-- `INIT` and what a `TICK` does after it (43_identification.md R143, R144). -/
theorem busyRun_init {s : State} (hb : s.busy = true) (hh : s.hung = false) :
    BusyRun (beginInit s) (finishInit (init s)) := by
  refine busyRun_transact_then (f := fun t => finishInit (afterRedirect t)) hb hh (by simp) (by simp [maxLen])
    (fun t ht => by simp [afterRedirect, finishInit, ht]) fun t ht hq _ => ?_
  by_cases hr : t.result ≠ .ok ∧ t.result ≠ .addressNack
  · simpa [resume, hq, afterRedirect, ht.hung, hr] using busyRun_initFails ht
  · simpa [resume, hq, afterRedirect, ht.hung, hr] using busyRun_hs1 ht.busy ht.hung

/-- An accepted `TICK` runs step by step to its response (43_identification.md R141, R142). -/
theorem busyRun_tick (s : State) (hs : s.Idle) : BusyRun (acceptedTick s) (tickBody s.beginTick) := by
  have hh : s.beginTick.hung = false := hs.2
  cases hp : s.pstate <;> simp only [acceptedTick, tickBody, State.beginTick_pstate, State.beginTick_settle, hp]
  case uninitialized =>
    split_ifs
    · exact .refl
    · exact busyRun_init rfl hh
  case active => exact busyRun_poll rfl hh

theorem exec_tick_idle {s : State} (hs : s.Idle) : exec .tick s = .next (tickBody s.beginTick) :=
  congrArg _ (whenIdle_idle hs _)

/-- Settles O34: the command's transactions are runs of the engine, each followed by the sequencer's move. -/
theorem commandIsItsBusSteps : Obligations.CommandIsItsBusSteps := by
  refine ⟨fun s i a p n hi hw hs hp hq => ?_, fun s hs => ?_⟩
  · rw [exec_xact hi]
    exact exists_run_of_busyRun (busyRun_directTransaction a n hs hp hq (xactOperands_length hi hw))
  · rw [exec_tick_idle hs]
    exact exists_run_of_busyRun (busyRun_tick s hs)

end Sys2Proof.Machine

/-! The parts of the invariant, and that every bus step keeps them. -/

namespace Sys2Proof.Machine

open Config

/-! ## The parts of the invariant -/

/-- The clauses of `Inv` about the environment and the registers of the sequencer. -/
structure SeqInv (s : State) : Prop where
  regsWf : RegsWf s.peripherals
  classNone : s.pclass = .none ↔ s.pstate = .uninitialized
  classOf : s.pstate = .active → s.pclass = classifyIdent s.params s.ident
  identCleared : s.pstate = .uninitialized → s.ident = 0
  activeSettled : s.pstate = .active → s.settle = 0
  settleBound : s.settle ≤ s.params.settleTicks
  sampleActive : s.sampleValid = true → s.pstate = .active
  initStep : s.pstep.inInit = true → s.pstate = .uninitialized ∧ s.settle = 0
  pollStep : s.pstep.inPoll = true → s.pstate = .active
  tickFlags : s.pstep ≠ .idle → s.sampleValid = false
  splitOnly : s.pstep = .identRd ∨ s.pstep = .pollRd → s.params.regReadMode = .split

/-- The clauses of `Inv` about the registers of a transaction, by its phase. -/
def PhaseInv (s : State) : Prop :=
  match s.phase with
  | .idle => s.result = .ok → s.rcount = s.rlen
  | .wStart => s.wlen ≠ 0 ∧ s.rcount = 0 ∧ s.result = .ok
  | .wAddr => s.wlen ≠ 0 ∧ s.rcount = 0 ∧ s.result = .ok
  | .wData => s.wlen ≠ 0 ∧ s.rcount = 0 ∧ s.result = .ok ∧ s.idx.toNat < s.wlen.toNat
  | .rStart => s.rlen ≠ 0 ∧ s.rcount = 0 ∧ s.result = .ok
  | .rAddr => s.rlen ≠ 0 ∧ s.rcount = 0 ∧ s.result = .ok
  | .rData => s.rlen ≠ 0 ∧ s.result = .ok ∧ s.idx = s.rcount ∧ s.idx.toNat < s.rlen.toNat
  | .stopping => s.result ≠ .arbitrationLost ∧ s.result ≠ .invalidArgument ∧ (s.result = .ok → s.rcount = s.rlen)
  | .rearming => s.result = .arbitrationLost

/-- `Inv` of a busy block. -/
structure BusyInv (s : State) : Prop where
  seq : SeqInv s
  phaseInv : PhaseInv s
  received : s.rcount.toNat ≤ s.rlen.toNat
  hungWaits : s.hung = true → s.phase.waits = true ∧ s.params.waitLimit = .inf
  identLength : s.pstep = .identRd ∨ s.pstep = .ident ∧ s.params.regReadMode = .combined → s.rlen = identLen
  pollLength : s.pstep = .pollRd ∨ s.pstep = .poll ∧ s.params.regReadMode = .combined → s.rlen = sampleLen

theorem Inv.seq {s : State} (h : Inv s) : SeqInv s := { h with }

theorem Inv.phaseInv {s : State} (h : Inv s) (hb : s.busy = true) : PhaseInv s := by
  have hw := h.writing
  have hr := h.reading
  cases hp : s.phase <;> simp only [PhaseInv, hp] <;>
    simp only [hp, Phase.writing, Phase.reading, forall_const] at hw hr
  case idle => exact h.ended hb hp
  case wStart => exact hw
  case wAddr => exact hw
  case wData => exact ⟨hw.1, hw.2.1, hw.2.2, h.writeIndex hp⟩
  case rStart => exact ⟨hr.1, h.readBefore (.inl hp), hr.2⟩
  case rAddr => exact ⟨hr.1, h.readBefore (.inr hp), hr.2⟩
  case rData => exact ⟨hr.1, hr.2, h.readIndex hp⟩
  case stopping => exact h.stopping hp
  case rearming => exact h.rearming hp

theorem Inv.busyInv {s : State} (h : Inv s) (hb : s.busy = true) : BusyInv s :=
  { h with
    seq := h.seq
    phaseInv := h.phaseInv hb
    hungWaits := fun hh => (h.hungWaits hh).2 }

theorem BusyInv.inv {s : State} (h : BusyInv s) (hb : s.busy = true) : Inv s :=
  have hp := h.phaseInv
  { h, h.seq with
    idleWhenFree := by simp [hb]
    hungWaits := fun hh => ⟨hb, h.hungWaits hh⟩
    writing := fun e => by
      cases e' : s.phase <;> simp only [e', Phase.writing, Bool.false_eq_true] at e <;>
        simp only [PhaseInv, e'] at hp <;> tauto
    writeIndex := fun e => by simp only [PhaseInv, e] at hp; exact hp.2.2.2
    reading := fun e => by
      cases e' : s.phase <;> simp only [e', Phase.reading, Bool.false_eq_true] at e <;>
        simp only [PhaseInv, e'] at hp <;> tauto
    readBefore := by rintro (e | e) <;> simp only [PhaseInv, e] at hp <;> exact hp.2.1
    readIndex := fun e => by simp only [PhaseInv, e] at hp; exact hp.2.2
    stopping := fun e => by simpa only [PhaseInv, e] using hp
    rearming := fun e => by simpa only [PhaseInv, e] using hp
    ended := fun _ e => by simpa only [PhaseInv, e] using hp }

/-- `Inv` of a block that waits for a command (10_state.md R20). -/
theorem inv_of_free {s : State} (h : SeqInv s) (hb : s.busy = false) (hh : s.hung = false) (hp : s.phase = .idle)
    (hq : s.pstep = .idle) (hr : s.rcount.toNat ≤ s.rlen.toNat) : Inv s :=
  { h with
    received := hr
    idleWhenFree := fun _ => ⟨hp, hq, hh⟩
    hungWaits := by simp [hh]
    writing := by simp [hp, Phase.writing]
    writeIndex := by simp [hp]
    reading := by simp [hp, Phase.reading]
    readBefore := by simp [hp]
    readIndex := by simp [hp]
    stopping := by simp [hp]
    rearming := by simp [hp]
    ended := by simp [hb]
    identLength := by simp [hq]
    pollLength := by simp [hq] }

theorem SeqInv.of_eq {s t : State} (h : SeqInv s) (hq : t.pis = s.pis) (hp : t.params = s.params)
    (he : RegsWf t.peripherals) : SeqInv t := by
  simp only [State.pis, Prod.mk.injEq] at hq
  obtain ⟨e1, e2, e3, e4, e5, _, e6, _⟩ := hq
  constructor
  case regsWf => exact he
  all_goals simp only [e1, e2, e3, e4, e5, e6, hp]
  exacts [h.classNone, h.classOf, h.identCleared, h.activeSettled, h.settleBound, h.sampleActive, h.initStep,
    h.pollStep, h.tickFlags, h.splitOnly]

/-! ## Bus steps -/

/-- A bus step leaves the sequencer and the read length, so what is left to show is about the transaction. -/
theorem BusyInv.of_busStep {s t : State} (h : BusyInv s) (hq : t.pis = s.pis) (hp : t.params = s.params)
    (hl : t.rlen = s.rlen) (he : RegsWf t.peripherals) (hphase : PhaseInv t) (hr : t.rcount.toNat ≤ t.rlen.toNat)
    (hh : t.hung = true → t.phase.waits = true ∧ t.params.waitLimit = .inf) : BusyInv t where
  seq := h.seq.of_eq hq hp he
  phaseInv := hphase
  received := hr
  hungWaits := hh
  identLength := by
    have e : t.pstep = s.pstep := congrArg (·.2.2.1) hq
    rw [e, hp, hl]; exact h.identLength
  pollLength := by
    have e : t.pstep = s.pstep := congrArg (·.2.2.1) hq
    rw [e, hp, hl]; exact h.pollLength

@[simp] theorem State.busWait_pis (s : State) (k : StepKind) (d : Byte) : (s.busWait k d).pis = s.pis := rfl
@[simp] theorem State.raise_pis (s : State) (c : Result) : (s.raise c).pis = s.pis := rfl

section
variable (t : State) (rx : Byte)
@[simp] theorem State.afterPass_pis : (t.afterPass rx).pis = t.pis := by unfold afterPass; split <;> rfl
@[simp] theorem State.afterPass_params : (t.afterPass rx).params = t.params := by unfold afterPass; split <;> rfl
@[simp] theorem State.afterPass_rlen : (t.afterPass rx).rlen = t.rlen := by unfold afterPass; split <;> rfl
@[simp] theorem State.afterPass_hung : (t.afterPass rx).hung = t.hung := by unfold afterPass; split <;> rfl
@[simp] theorem State.afterPass_env : (t.afterPass rx).env = t.env := by unfold afterPass; split <;> rfl
end

theorem toNat_ne_zero {b : Byte} : b ≠ 0 ↔ b.toNat ≠ 0 :=
  not_congr ⟨fun h => h ▸ rfl, fun h => BitVec.eq_of_toNat_eq h⟩

theorem phaseInv_afterTxd {t : State} (hw : t.wlen ≠ 0) (hc : t.rcount = 0) (hr : t.result = .ok) :
    PhaseInv { t with phase := afterTxd t } := by
  by_cases hi : t.idx.toNat < t.wlen.toNat
  · simp only [PhaseInv, afterTxd, hi, ↓reduceIte]
    exact ⟨hw, hc, hr, trivial⟩
  · by_cases hl : t.rlen = 0
    · simp [PhaseInv, afterTxd, hi, hl, hc, hr]
    · simp only [PhaseInv, afterTxd, hi, hl, ↓reduceIte, ne_eq, not_false_eq_true]
      exact ⟨trivial, hc, hr⟩

/-- A passing bus step leads to the next phase with what that phase implies (41_transaction.md R120). -/
theorem phaseInv_afterPass {t : State} (rx : Byte) (hw : t.phase.waits = true) (h : PhaseInv t) :
    PhaseInv (t.afterPass rx) := by
  cases hp : t.phase <;> simp only [hp, Phase.waits, Bool.false_eq_true] at hw <;>
    simp only [PhaseInv, hp] at h <;> simp only [State.afterPass, hp]
  case wStart => exact h
  case wAddr =>
    obtain ⟨hl, hc, hr⟩ := h
    exact ⟨hl, hc, hr, Nat.pos_of_ne_zero (toNat_ne_zero.mp hl)⟩
  case wData =>
    obtain ⟨hl, hc, hr, _⟩ := h
    exact phaseInv_afterTxd (t := { t with idx := t.idx + 1 }) hl hc hr
  case rStart => exact h
  case rAddr =>
    obtain ⟨hl, hc, hr⟩ := h
    exact ⟨hl, hr, hc.symm, Nat.pos_of_ne_zero (toNat_ne_zero.mp hl)⟩
  case rData =>
    obtain ⟨hl, hr, hc, hi⟩ := h
    have e : (t.idx + 1).toNat = t.idx.toNat + 1 := toNat_add_one (by have := t.rlen.isLt; omega)
    split
    · exact ⟨hl, hr, congrArg (· + 1) hc, e.trans_lt ‹_›⟩
    · have hend : t.rcount + 1 = t.rlen := BitVec.eq_of_toNat_eq (by rw [← hc, e]; omega)
      exact ⟨by simp [hr], by simp [hr], fun _ => hend⟩

theorem received_afterPass {t : State} (rx : Byte) (h : PhaseInv t) (hr : t.rcount.toNat ≤ t.rlen.toNat) :
    (t.afterPass rx).rcount.toNat ≤ (t.afterPass rx).rlen.toNat := by
  cases hp : t.phase <;> simp only [PhaseInv, hp] at h <;> simp only [State.afterPass, hp]
  case rData =>
    obtain ⟨_, _, hc, hi⟩ := h
    have e : (t.rcount + 1).toNat = t.rcount.toNat + 1 := toNat_add_one (by rw [← hc]; have := t.rlen.isLt; omega)
    exact e.trans_le (hc ▸ hi)
  all_goals exact hr

theorem phaseInv_raise {t : State} {c : Result} (hc : c ≠ .ok) (hc' : c ≠ .invalidArgument) : PhaseInv (t.raise c) := by
  rcases recoveryPhase_eq c with ⟨hl, e⟩ | ⟨hl, e⟩ <;> simp only [PhaseInv, State.raise_phase, e]
  · exact hl
  · exact ⟨hl, hc', fun hok => absurd hok hc⟩

/-- Every bus step of the engine keeps the invariant. -/
theorem BusyInv.issue {s : State} (h : BusyInv s) (hh : s.hung = false) (hp : s.phase ≠ .idle) : BusyInv (issue s) := by
  rcases Phase.waits_or_releases hp with hw | hr
  · obtain ⟨k, d, hcases⟩ := issue_waits hh hw
    have hwf : RegsWf (s.busWait k d).peripherals := State.busWait_wf k d h.seq.regsWf
    have hphase : PhaseInv (s.busWait k d) := h.phaseInv
    obtain ⟨rx, hn, e⟩ | ⟨c, hc, hc', hn, e⟩ | ⟨hl, hn, e⟩ := hcases <;> rw [e]
    · refine h.of_busStep (by simp) (by simp) (by simp)
        (by simpa [State.peripherals] using hwf) (phaseInv_afterPass rx hw hphase)
        (received_afterPass rx hphase h.received) fun hh' => ?_
      rw [State.afterPass_hung, hn] at hh'
      cases hh'
    · refine h.of_busStep (by simp) (by simp) (by simp) (by simpa [State.peripherals] using hwf)
        (phaseInv_raise hc hc') h.received fun hh' => ?_
      rw [State.raise_hung, hn] at hh'
      cases hh'
    · exact h.of_busStep (by simp) (by simp) (by simp) hwf hphase h.received fun _ => ⟨hw, hl⟩
  · obtain ⟨k, e⟩ := issue_releases hh hr
    rw [e]
    have hwf := State.busRelease_wf k h.seq.regsWf
    refine h.of_busStep (by simp [State.pis]) (by simp) (by simp) (by simpa [State.peripherals] using hwf)
      (fun hok => ?_) h.received (by simp [hh])
    have hphase := h.phaseInv
    rcases hr with hr | hr <;> simp only [PhaseInv, hr] at hphase
    · exact hphase.2.2 hok
    · exact absurd (hphase.symm.trans hok) (by simp)

end Sys2Proof.Machine

/-! Every move of the sequencer, every host command and so every step keeps the invariant. -/

namespace Sys2Proof.Machine

open Config

/-! ## The start of a transaction and the response -/

/-- A transaction just begun meets the invariant (41_transaction.md R110). -/
theorem busyInv_beginTransaction {s : State} {p : List Byte} {n : Byte} (a : BusAddr) (h : SeqInv s)
    (hh : s.hung = false) (hp : s.phase = .idle) (hl : p.length ≤ maxLen)
    (hid : s.pstep = .identRd ∨ s.pstep = .ident ∧ s.params.regReadMode = .combined → n = identLen)
    (hpo : s.pstep = .pollRd ∨ s.pstep = .poll ∧ s.params.regReadMode = .combined → n = sampleLen) :
    BusyInv (s.beginTransaction a p n) where
  seq := h.of_eq (by simp [State.pis]) (by simp) (by simpa [State.peripherals] using h.regsWf)
  phaseInv := by
    by_cases hpn : p = []
    · by_cases hn : n = 0#8
      · simp [PhaseInv, hpn, hn, hp]
      · simp [PhaseInv, hpn, hn]
    · simpa [PhaseInv, hpn] using payloadLength_ne_zero hpn hl
  received := by simp
  hungWaits := by simp [hh]
  identLength := by simpa using hid
  pollLength := by simpa using hpo

/-- So does a register read just begun, in either mode (42_register_protocol.md R132). -/
theorem busyInv_beginRead {s : State} {n : Byte} (a : BusAddr) (r : Byte) (h : SeqInv s) (hh : s.hung = false)
    (hp : s.phase = .idle) (hq : s.pstep = .ident ∧ n = identLen ∨ s.pstep = .poll ∧ n = sampleLen) :
    BusyInv (s.beginRead a r n) := by
  unfold State.beginRead
  cases hm : s.params.regReadMode <;> simp only <;>
    refine busyInv_beginTransaction a h hh hp (by simp [maxLen]) ?_ ?_ <;> rcases hq with ⟨hq, rfl⟩ | ⟨hq, rfl⟩ <;>
    simp [hq, hm]

theorem SeqInv.respond {s : State} (h : SeqInv s) (b : List Byte) : SeqInv (s.respond b) :=
  h.of_eq rfl rfl h.regsWf

theorem inv_respond {s : State} (b : List Byte) (h : SeqInv s) (hh : s.hung = false) (hp : s.phase = .idle)
    (hq : s.pstep = .idle) (hr : s.rcount.toNat ≤ s.rlen.toNat) : Inv (s.respond b) :=
  inv_of_free (h.respond b) rfl hh hp hq hr

theorem inv_respondTick {s : State} (h : SeqInv s) (hh : s.hung = false) (hp : s.phase = .idle)
    (hq : s.pstep = .idle) (hr : s.rcount.toNat ≤ s.rlen.toNat) : Inv (respondTick s) := by
  simp only [respondTick, hh, Bool.false_eq_true, ↓reduceIte]
  exact inv_respond _ h hh hp hq hr

/-! ## The moves of the sequencer -/

/-- The sequencer goes to another position. -/
theorem SeqInv.setPstep {s : State} (h : SeqInv s) (q : PStep)
    (hi : q.inInit = true → s.pstate = .uninitialized ∧ s.settle = 0) (hp : q.inPoll = true → s.pstate = .active)
    (hf : q ≠ .idle → s.sampleValid = false) (hs : q = .identRd ∨ q = .pollRd → s.params.regReadMode = .split) :
    SeqInv { s with pstep := q } :=
  { h with initStep := hi, pollStep := hp, tickFlags := hf, splitOnly := hs }

section
variable {s : State}

theorem SeqInv.setPstep_idle (h : SeqInv s) : SeqInv { s with pstep := .idle } :=
  h.setPstep _ (by simp [PStep.inInit]) (by simp [PStep.inPoll]) (by simp) (by simp)

/-- The sequencer goes on inside `INIT`. -/
theorem SeqInv.setPstep_init (h : SeqInv s) {q : PStep} (hi : s.pstep.inInit = true) (hq : q.inInit = true)
    (hs : q = .identRd → s.params.regReadMode = .split) : SeqInv { s with pstep := q } := by
  have hne : s.pstep ≠ .idle := fun e => by simp [e, PStep.inInit] at hi
  refine h.setPstep q (fun _ => h.initStep hi) (fun e => ?_) (fun _ => h.tickFlags hne) ?_
  · cases q <;> simp [PStep.inInit, PStep.inPoll] at hq e
  · rintro (rfl | rfl)
    · exact hs rfl
    · simp [PStep.inInit] at hq

/-- `POLL` begins (43_identification.md R150). -/
theorem inv_beginPoll (h : SeqInv s) (hs : Between s) (ha : s.pstate = .active) (hf : s.sampleValid = false) :
    Inv (beginPoll s) := by
  have hseq : SeqInv { s with pstep := .poll } :=
    h.setPstep .poll (by simp [PStep.inInit]) (fun _ => ha) (fun _ => hf) (by simp)
  exact (busyInv_beginRead _ _ hseq hs.hung hs.phase (.inr ⟨rfl, rfl⟩)).inv (by simpa [beginPoll] using hs.busy)

/-- `INIT` returns false and the `TICK` ends (43_identification.md R147). -/
theorem inv_initFails (h : BusyInv s) (hs : Between s) (hi : s.pstep.inInit = true) :
    Inv (resumeInit (initFails s)) := by
  have hu := (h.seq.initStep hi).1
  have hseq : SeqInv { s with pstep := .idle, settle := s.params.settleTicks } :=
    { h.seq.setPstep_idle with
      activeSettled := fun ha => absurd (hu.symm.trans ha) (by simp)
      settleBound := Nat.le_refl _
      initStep := by simp [PStep.inInit] }
  exact inv_respondTick hseq hs.hung hs.phase rfl h.received

theorem classifyIdent_ne_none (p : Params) (id : IdentCode) : classifyIdent p id ≠ .none := by
  unfold classifyIdent
  split_ifs <;> simp

/-- The identity is taken and the block becomes active (43_identification.md R146, R148). -/
def identified (s : State) : State :=
  activate { s with
    ident := identOf s.received
    pclass := classifyIdent s.params (identOf s.received)
    pstep := .idle }

theorem SeqInv.identified (h : SeqInv s) (hi : s.pstep.inInit = true) : SeqInv (identified s) :=
  { h.setPstep_idle with
    classNone := by simp [Machine.identified, classifyIdent_ne_none]
    classOf := fun _ => rfl
    identCleared := by simp [Machine.identified]
    activeSettled := fun _ => (h.initStep hi).2
    sampleActive := fun _ => rfl
    initStep := by simp [Machine.identified, PStep.inInit]
    pollStep := fun _ => rfl }

/-- `INIT` has read the identity (43_identification.md R146 to R149). -/
theorem inv_afterIdent (h : BusyInv s) (hs : Between s) (hi : s.pstep.inInit = true) :
    Inv (resumeInit (afterIdent s)) := by
  by_cases hr : s.result = .ok
  · have hne : s.pstep ≠ .idle := fun e => by simp [e, PStep.inInit] at hi
    have hres : resumeInit (afterIdent s) =
        if s.params.fallthrough then beginPoll (identified s) else respondTick (identified s) := by
      simp [resumeInit, afterIdent, hs.hung, hr, identified]
    have hseq := h.seq.identified hi
    rw [hres]
    split
    · exact inv_beginPoll hseq ⟨hs.busy, hs.hung, hs.phase⟩ rfl (h.seq.tickFlags hne)
    · exact inv_respondTick hseq hs.hung hs.phase rfl h.received
  · have hres : afterIdent s = initFails s := by simp [afterIdent, hs.hung, hr]
    rw [hres]
    exact inv_initFails h hs hi

/-- `POLL` has ended: a sample, or the drop to `Uninitialized` (43_identification.md R150, R151). -/
theorem inv_pollEnd (h : BusyInv s) (hs : Between s) (hi : s.pstep.inPoll = true) :
    Inv (respondTick (pollEnd s)) := by
  have ha := h.seq.pollStep hi
  by_cases hr : s.result = .ok
  · have hseq : SeqInv { s with pstep := .idle, sample := loadBuffer s.sample s.received, sampleValid := true } :=
      { h.seq.setPstep_idle with
        sampleActive := fun _ => ha
        tickFlags := by simp }
    rw [pollEnd, if_neg (by simp [hs.hung]), if_pos hr]
    exact inv_respondTick hseq hs.hung hs.phase rfl h.received
  · have hseq : SeqInv (State.dropToUninitialized { s with pstep := .idle }) :=
      { h.seq.setPstep_idle with
        classNone := by simp
        classOf := by simp
        identCleared := by simp
        activeSettled := by simp
        settleBound := by simp
        sampleActive := by simp
        initStep := by simp [PStep.inInit]
        pollStep := by simp [PStep.inPoll]
        tickFlags := by simp }
    rw [pollEnd, if_neg (by simp [hs.hung]), if_neg hr]
    exact inv_respondTick hseq hs.hung hs.phase rfl h.received

theorem State.halfRead_split (h : s.halfRead = true) : s.params.regReadMode = .split := by
  simp only [State.halfRead, Bool.and_eq_true, beq_iff_eq] at h
  exact h.1

/-- The next transaction of `INIT` begins. -/
theorem inv_initWrite (h : BusyInv s) (hs : Between s) (hi : s.pstep.inInit = true) {q : PStep}
    (hq : q = .hs1 ∨ q = .hs2) (a : BusAddr) {p : List Byte} (hl : p.length ≤ maxLen) :
    Inv (State.beginTransaction { s with pstep := q } a p 0) := by
  have hseq : SeqInv { s with pstep := q } :=
    h.seq.setPstep_init hi (by rcases hq with rfl | rfl <;> rfl) (by rcases hq with rfl | rfl <;> simp)
  refine (busyInv_beginTransaction a hseq hs.hung hs.phase hl ?_ ?_).inv (by simpa using hs.busy) <;>
    rcases hq with rfl | rfl <;> simp

/-- Every move of the sequencer between two transactions keeps the invariant (41_transaction.md R121). -/
theorem inv_resume (h : BusyInv s) (hs : Between s) : Inv (resume s) := by
  have hseq := h.seq
  cases hq : s.pstep <;> simp only [resume, hq]
  case idle =>
    simp only [respondXact, hs.hung, Bool.false_eq_true, ↓reduceIte]
    exact inv_respond _ hseq hs.hung hs.phase hq h.received
  case redirect =>
    have hi : s.pstep.inInit = true := by rw [hq]; rfl
    split
    · exact inv_initFails h hs hi
    · exact inv_initWrite h hs hi (.inl rfl) _ (by simp [maxLen])
  case hs1 =>
    have hi : s.pstep.inInit = true := by rw [hq]; rfl
    split
    · exact inv_initFails h hs hi
    · exact inv_initWrite h hs hi (.inr rfl) _ (by simp [maxLen])
  case hs2 =>
    have hi : s.pstep.inInit = true := by rw [hq]; rfl
    split
    · exact inv_initFails h hs hi
    · have hseq' : SeqInv { s with pstep := .ident } := hseq.setPstep_init hi rfl (by simp)
      exact (busyInv_beginRead _ _ hseq' hs.hung hs.phase (.inl ⟨rfl, rfl⟩)).inv (by simpa using hs.busy)
  case ident =>
    have hi : s.pstep.inInit = true := by rw [hq]; rfl
    split
    · have hm := State.halfRead_split ‹_›
      have hseq' : SeqInv { s with pstep := .identRd } := hseq.setPstep_init hi rfl fun _ => hm
      exact (busyInv_beginTransaction _ hseq' hs.hung hs.phase (by simp [maxLen]) (fun _ => rfl) (by simp)).inv
        (by simpa using hs.busy)
    · exact inv_afterIdent h hs hi
  case identRd => exact inv_afterIdent h hs (by rw [hq]; rfl)
  case poll =>
    have hi : s.pstep.inPoll = true := by rw [hq]; rfl
    split
    · have hm := State.halfRead_split ‹_›
      have hseq' : SeqInv { s with pstep := .pollRd } := hseq.setPstep .pollRd (by simp [PStep.inInit])
        (fun _ => hseq.pollStep hi) (fun _ => hseq.tickFlags (by simp [hq])) fun _ => hm
      exact (busyInv_beginTransaction _ hseq' hs.hung hs.phase (by simp [maxLen]) (by simp) (fun _ => rfl)).inv
        (by simpa using hs.busy)
    · exact inv_pollEnd h hs hi
  case pollRd => exact inv_pollEnd h hs (by rw [hq]; rfl)

end

/-! ## Every step -/

theorem Inv.busyStep {s t : State} (h : Inv s) (hs : BusyStep s t) : Inv t := by
  obtain ⟨hb, hh, hstep⟩ := hs
  have hbusy := h.busyInv hb
  rcases step_busy hb hstep with ⟨_, rfl⟩ | ⟨_, hp, rfl⟩ | ⟨_, hp, rfl⟩
  · exact h
  · exact (hbusy.issue hh hp).inv (by simpa using hb)
  · exact inv_resume hbusy ⟨hb, hh, hp⟩

theorem Inv.busyRun {s t : State} (h : Inv s) (hs : BusyRun s t) : Inv t := by
  induction hs with
  | refl => exact h
  | tail _ hstep ih => exact ih.busyStep hstep

theorem Inv.present {s : State} (h : Inv s) (l : List Byte) : Inv { s with inbox := l } := { h with }

/-- A reserved byte sets `RESULT` and `RCOUNT` of an idle block (30_encoding.md R67). -/
theorem Inv.rejectReserved {s : State} (h : Inv s) (hs : s.Idle) : Inv s.rejectReserved := by
  obtain ⟨hp, hq, _⟩ := h.idleWhenFree hs.1
  exact inv_of_free (h.seq.of_eq rfl rfl h.regsWf) hs.1 hs.2 hp hq (Nat.zero_le _)

/-- An accepted direct transaction meets the invariant. -/
theorem inv_accepted {s : State} (h : Inv s) (hs : s.Idle) (a : BusAddr) {p : List Byte} (n : Byte)
    (hl : p.length ≤ maxLen) : Inv (accepted a p n s) := by
  obtain ⟨hp, hq, _⟩ := h.idleWhenFree hs.1
  have hseq : SeqInv s.accept := h.seq.of_eq rfl rfl h.regsWf
  exact (busyInv_beginTransaction a hseq hs.2 hp hl (by simp [hq]) (by simp [hq])).inv (by simp)

theorem seqInv_beginTick {s : State} (h : SeqInv s) : SeqInv s.beginTick :=
  { h with
    sampleActive := by simp
    tickFlags := fun _ => rfl }

/-- An accepted `TICK` meets the invariant (43_identification.md R141). -/
theorem inv_acceptedTick {s : State} (h : Inv s) (hs : s.Idle) : Inv (acceptedTick s) := by
  obtain ⟨hp, hq, _⟩ := h.idleWhenFree hs.1
  have hseq := seqInv_beginTick h.seq
  unfold acceptedTick
  cases hps : s.pstate <;> simp only
  case uninitialized =>
    split
    · have hseq' : SeqInv { s.beginTick with settle := s.settle - 1 } :=
        { hseq with
          activeSettled := fun ha => absurd (hps.symm.trans ha) (by simp)
          settleBound := (Nat.sub_le _ _).trans h.settleBound
          initStep := by simp [hq, PStep.inInit] }
      exact inv_respondTick hseq' hs.2 hp hq h.received
    · have hseq' : SeqInv { s.beginTick with pstep := .redirect } :=
        hseq.setPstep .redirect (fun _ => ⟨hps, by simpa using ‹¬0 < s.settle›⟩) (by simp [PStep.inPoll])
          (fun _ => rfl) (by simp)
      exact (busyInv_beginTransaction _ hseq' hs.2 hp (by simp [maxLen]) (by simp) (by simp)).inv (by simp)
  case active => exact inv_beginPoll hseq ⟨rfl, hs.2, hp⟩ hps rfl

theorem xactForm_length {a : BusAddr} {body : List Byte} {w n : Byte} (h : body.length ≤ maxLen) :
    ∃ p m, xactOperands (xactForm a body w n) = some (a, p, m) ∧ p.length ≤ maxLen := by
  unfold xactForm
  split_ifs
  · exact ⟨_, _, rfl, Nat.zero_le _⟩
  · exact ⟨_, _, rfl, h⟩
  · exact ⟨_, _, rfl, Nat.zero_le _⟩
  · exact ⟨_, _, rfl, h⟩

/-- The presented bytes hold a `TICK` or an `XACT` command with at most 255 payload bytes (30_encoding.md R60, R61). -/
theorem decodeHost_command {bs rest : List Byte} {i : Instr} (h : decodeHost bs = .command i rest) :
    i = .tick ∨ ∃ a p n, xactOperands i = some (a, p, n) ∧ p.length ≤ maxLen := by
  unfold decodeHost at h
  split at h
  · cases h
  split at h
  · split at h <;> cases h
    exact .inl rfl
  split at h
  · rename_i wlen rlen body
    split at h <;> cases h
    have hl : (body.take wlen.toNat).length ≤ maxLen :=
      (List.length_take_le _ _).trans (Nat.le_of_lt_succ wlen.isLt)
    exact .inr ⟨_, xactForm_length hl⟩
  · cases h

/-- A host command keeps the invariant: it is the run of its steps from its acceptance. -/
theorem Inv.command {s t : State} {i : Instr} {bs rest : List Byte} (h : Inv s) (hs : s.Idle)
    (hd : decodeHost bs = .command i rest) (ht : exec i s = .next t) : Inv t := by
  obtain ⟨hp, hq, _⟩ := h.idleWhenFree hs.1
  rcases decodeHost_command hd with rfl | ⟨a, p, n, hi, hl⟩
  · rw [exec_tick_idle hs] at ht
    cases ht
    exact (inv_acceptedTick h hs).busyRun (busyRun_tick s hs)
  · rw [exec_xact hi] at ht
    cases ht
    exact (inv_accepted h hs a n hl).busyRun (busyRun_directTransaction a n hs hp hq hl)

/-- Settles O3: a busy block makes a bus step or a move of the sequencer, and a command of an idle block is a run of
such steps from its acceptance. -/
theorem everyStepKeepsInv : Obligations.EveryStepKeepsInv := by
  intro s t h hstep
  cases hb : s.busy
  case true =>
    cases hh : s.hung
    case true =>
      rw [step_hung hh] at hstep
      cases hstep
      exact h
    case false => exact h.busyStep ⟨hb, hh, hstep⟩
  case false =>
    have hs : s.Idle := ⟨hb, (h.idleWhenFree hb).2.2⟩
    cases hd : decodeHost s.inbox with
    | command i rest =>
      rw [step_command hs hd] at hstep
      exact (h.present rest).command hs hd hstep
    | reserved b rest =>
      rw [step_reserved hs hd] at hstep
      cases hstep
      exact (h.present rest).rejectReserved hs
    | incomplete =>
      rw [step_incomplete hs hd] at hstep
      cases hstep
      exact h

end Sys2Proof.Machine

/-! What one bus step does to each peripheral of the reference environment, and to the registers. -/

namespace Sys2Proof.Machine

open Config

/-! ## One peripheral (20_memory.md R47 to R49) -/

/-- What a bus step of kind `k` with byte `d` makes of one peripheral, whatever the step is answered. -/
def Peripheral.act (q : Params) (k : StepKind) (d : Byte) (p : Peripheral) : Peripheral :=
  match k with
  | .start => { p with sel := .none }
  | .slaw => if p.answersAt (d.extractLsb' 1 7) then { p with sel := .wrFirst } else p
  | .slar => if p.answersAt (d.extractLsb' 1 7) then { p with sel := .rd } else p
  | .txd => p.transmit q d
  | .rxa => p.receive false
  | .rxn => p.receive true
  | .stop =>
    { p with
      sel := .none
      paddr := if p.redirectPending then q.addrPrimary else p.paddr
      redirectPending := false }
  | .rearm => { p with sel := .none }

theorem Peripheral.transmit_wrFirst (q : Params) (d : Byte) {p : Peripheral} (h : p.sel = .wrFirst) :
    p.transmit q d = { p with ptr := d, sel := .wr } := by
  simp [Peripheral.transmit, h]

theorem Peripheral.transmit_wr (q : Params) (d : Byte) {p : Peripheral} (h : p.sel = .wr) :
    p.transmit q d = { p with
      reg := p.reg.write p.ptr.toNat d
      ptr := p.ptr + 1
      redirectPending := p.redirectPending ||
        (p.secondary && p.paddr == q.addrSecondary && p.ptr == q.redirectReg && d == q.redirectVal) } := by
  simp [Peripheral.transmit, h]

/-- One that is not selected for writing keeps its registers (20_memory.md R48). -/
theorem Peripheral.transmit_reg (q : Params) (d : Byte) {p : Peripheral} (h : p.sel ≠ .wr) :
    (p.transmit q d).reg = p.reg := by
  unfold Peripheral.transmit
  split
  · rfl
  · exact absurd ‹_› h
  · rfl
  · rfl

/-- Only `TXD` stores, and only in a peripheral selected for writing. -/
theorem Peripheral.act_reg (q : Params) (k : StepKind) (d : Byte) {p : Peripheral} (h : k = .txd → p.sel ≠ .wr) :
    (p.act q k d).reg = p.reg := by
  cases k <;> simp only [Peripheral.act]
  case slaw => split <;> rfl
  case slar => split <;> rfl
  case txd => exact p.transmit_reg q d (h rfl)
  case rxa => exact p.receive_reg false
  case rxn => exact p.receive_reg true

/-- A register is stored in only by a `TXD` to a peripheral selected for writing whose pointer names it. -/
theorem Peripheral.read_act (q : Params) (k : StepKind) (d : Byte) {p : Peripheral} {x : Byte}
    (h : k = .txd → ¬(p.sel = .wr ∧ p.ptr = x)) : (p.act q k d).reg.read x.toNat = p.reg.read x.toNat := by
  by_cases hk : k = .txd ∧ p.sel = .wr
  · obtain ⟨rfl, hs⟩ := hk
    have hne : x.toNat ≠ p.ptr.toNat := fun e => h rfl ⟨hs, (BitVec.eq_of_toNat_eq e).symm⟩
    simp only [Peripheral.act, Peripheral.transmit_wr q d hs]
    exact Memory.read_write_ne d hne
  · rw [Peripheral.act_reg q k d fun hk' hs => hk ⟨hk', hs⟩]

/-! ## All peripherals -/

theorem Env0.answer_peripherals (q : Params) (e : Env0) (k : StepKind) (d : Byte) :
    (e.answer q k d).1.peripherals = e.peripherals.map (Peripheral.act q k d) := by
  cases k <;> rfl

/-- A waiting step acts on every peripheral, under a scripted answer too (log entry 13). -/
theorem State.busWait_peripherals (s : State) (k : StepKind) (d : Byte) :
    (s.busWait k d).peripherals = s.peripherals.map (Peripheral.act s.params k d) := by
  cases hr : s.env.ref with
  | none => simp [State.peripherals, Environment.draw, hr]
  | some e => simpa [State.peripherals, Environment.draw, hr] using Env0.answer_peripherals s.params e k d

theorem State.busRelease_peripherals (s : State) {k : StepKind} (d : Byte) (h : k = .stop ∨ k = .rearm) :
    (s.busRelease k).peripherals = s.peripherals.map (Peripheral.act s.params k d) := by
  cases hr : s.env.ref with
  | none => simp [State.peripherals, Environment.release, hr]
  | some e => rcases h with rfl | rfl <;> simp [State.peripherals, Environment.release, hr] <;> rfl

theorem peripherals_of_env {s t : State} (h : t.env = s.env) : t.peripherals = s.peripherals := by
  rw [State.peripherals, h]; rfl

theorem registerAt_of_env {s t : State} (h : t.env = s.env) (k : Nat) (x : Byte) :
    t.registerAt k x = s.registerAt k x := by
  rw [State.registerAt, peripherals_of_env h]; rfl

theorem waitingStep_peripherals {s : State} (k : StepKind) (d : Byte) {f : Byte → State → State}
    (hf : ∀ rx t, (f rx t).env = t.env) (hh : s.hung = false) :
    (s.waitingStep k d f).peripherals = s.peripherals.map (Peripheral.act s.params k d) := by
  rw [← State.busWait_peripherals]
  rcases waitingStep_cases s k d f hh with ⟨_, _, rx, _, _, _, e⟩ | ⟨c, _, _, _, _, e⟩ | ⟨_, _, _, e⟩ <;> rw [e]
  · exact peripherals_of_env (hf rx _)
  · exact peripherals_of_env (State.raise_env _ _)

theorem releaseStep_peripherals {s : State} {k : StepKind} (d : Byte) (hk : k = .stop ∨ k = .rearm)
    (hh : s.hung = false) : (s.releaseStep k).peripherals = s.peripherals.map (Peripheral.act s.params k d) := by
  rw [← State.busRelease_peripherals s d hk]
  simp only [State.releaseStep, hh, Bool.false_eq_true, ↓reduceIte]
  exact peripherals_of_env rfl

/-! ## The instructions that are bus steps -/

/-- The kind of a bus step and its byte (30_encoding.md R69). -/
def busStepOf : Instr → Option (StepKind × Byte)
  | .start => some (.start, 0)
  | .rstart => some (.start, 0)
  | .slaw a => some (.slaw, addrWrite a)
  | .slar a => some (.slar, addrRead a)
  | .txd d => some (.txd, d)
  | .rxa => some (.rxa, 0)
  | .rxn => some (.rxn, 0)
  | .stop => some (.stop, 0)
  | .rearm => some (.rearm, 0)
  | _ => none

theorem exists_busStepOf {i : Instr} {w : StepWord} (h : busWord i = some w) : ∃ k d, busStepOf i = some (k, d) := by
  cases i <;> simp [busWord, waitingWord] at h <;> exact ⟨_, _, rfl⟩

theorem busStepOf_txd {i : Instr} {d : Byte} (h : busStepOf i = some (.txd, d)) : i = .txd d := by
  cases i <;> simp_all [busStepOf]

/-- A bus step acts on every peripheral, unless the block hangs. -/
theorem exec_busStep_peripherals {s t : State} {i : Instr} {k : StepKind} {d : Byte} (hi : busStepOf i = some (k, d))
    (hh : s.hung = false) (h : exec i s = .next t) :
    t.peripherals = s.peripherals.map (Peripheral.act s.params k d) := by
  cases i <;> simp only [busStepOf, Option.some.injEq, Prod.mk.injEq, reduceCtorEq] at hi <;>
    obtain ⟨rfl, rfl⟩ := hi <;> cases h
  case start => exact waitingStep_peripherals _ _ (fun _ t => by split <;> rfl) hh
  case stop => exact releaseStep_peripherals _ (.inl rfl) hh
  case rearm => exact releaseStep_peripherals _ (.inr rfl) hh
  all_goals exact waitingStep_peripherals _ _ (fun _ _ => rfl) hh

/-- From the hang on a bus step changes nothing (60_exceptions.md R183). -/
theorem exec_busStep_hung {s t : State} {i : Instr} {k : StepKind} {d : Byte} (hi : busStepOf i = some (k, d))
    (hh : s.hung = true) (h : exec i s = .next t) : t = s := by
  cases i <;> simp only [busStepOf, Option.some.injEq, Prod.mk.injEq, reduceCtorEq] at hi <;> cases h
  case stop => exact if_pos hh
  case rearm => exact if_pos hh
  all_goals exact waitingStep_hung _ _ _ _ hh

/-- Settles O27: each peripheral is acted on by the step, and only a `TXD` at its pointer changes what it reads. -/
theorem onlyTxdStoresAndOnlyAtThePointer : Obligations.OnlyTxdStoresAndOnlyAtThePointer := by
  intro s t i w j x hw h hx
  obtain ⟨k, d, hi⟩ := exists_busStepOf hw
  cases hh : s.hung
  case true => rw [exec_busStep_hung hi hh h]
  case false =>
    simp only [State.registerAt, exec_busStep_peripherals hi hh h, List.getElem?_map, Option.map_map]
    refine Option.map_congr fun p hp => Peripheral.read_act _ k d fun hk => ?_
    subst hk
    exact hx p d hp (busStepOf_txd hi)

/-- Settles O28: the peripheral transmits the byte, and a canonical memory reads what was written. -/
theorem txdStoresAtThePointer : Obligations.TxdStoresAtThePointer := by
  intro s t d j p hh h hp hwf hs
  have hq : t.peripherals[j]? = some (p.transmit s.params d) := by
    rw [exec_busStep_peripherals (i := .txd d) rfl hh h, List.getElem?_map, hp]
    rfl
  rw [Peripheral.transmit_wr _ d hs] at hq
  refine ⟨?_, _, hq, rfl⟩
  simp only [State.registerAt, hq, Option.map_some, Memory.read_write_same _ _ hwf]

/-! ## Releasing the bus (20_memory.md R47, R54) -/

/-- A release leaves no owner of the bus (10_state.md R30). -/
theorem Environment.release_owned {q : Params} {v : Environment} {k : StepKind} {e : Env0}
    (h : (v.release q k).ref = some e) : e.owned = false := by
  obtain ⟨r, _, rfl⟩ := Option.map_eq_some_iff.mp h
  split <;> rfl

/-- `STOP` and `REARM` complete in a block that does not hang (40_bus_steps.md R98, R99). -/
theorem releaseStep_eq {s : State} (k : StepKind) (hh : s.hung = false) :
    s.releaseStep k = { s.busRelease k with phase := .idle } := by
  simp [State.releaseStep, hh]

/-- Settles O21: a release emits its token and acts on the environment, and ends in `IDLE`. -/
theorem releaseStepsComplete : Obligations.ReleaseStepsComplete := by
  refine fun s hh => ⟨⟨_, congrArg Host.Outcome.next (releaseStep_eq .stop hh), rfl, fun e he => ?_, rfl⟩,
    ⟨_, congrArg Host.Outcome.next (releaseStep_eq .rearm hh), rfl, fun e he => ?_, rfl⟩⟩
  · exact Environment.release_owned he
  · exact Environment.release_owned he

end Sys2Proof.Machine

/-! The bus step of a phase by its kind and byte, and the release that ends a transaction (20_memory.md R54). -/

namespace Sys2Proof.Machine

open Config

/-! ## The bus step of a phase -/

/-- The byte of the bus step the engine issues next (30_encoding.md R69, 41_transaction.md R115, R116). -/
def State.stepData (s : State) : Byte :=
  match s.phase with
  | .wAddr => addrWrite s.addr
  | .wData => s.wbufAt s.idx
  | .rAddr => addrRead s.addr
  | _ => 0

/-- `issue_eq_waitingStep`, with the kind and the byte of the phase. -/
theorem issue_eq_waitingStep_stepKind {s : State} {k : StepKind} (hw : s.phase.waits = true)
    (hk : s.stepKind = some k) :
    ∃ f, issue s = s.waitingStep k s.stepData f ∧
      ∀ rx, f rx (s.busWait k s.stepData) = (s.busWait k s.stepData).afterPass rx := by
  cases hp : s.phase <;> simp only [hp, Phase.waits, Bool.false_eq_true] at hw <;>
    simp only [State.stepKind, hp, Option.some.injEq] at hk <;> subst hk <;> simp only [issue, State.stepData, hp]
  case rStart => split <;> exact ⟨_, rfl, fun rx => by simp [State.afterPass, hp]⟩
  case rData => split <;> exact ⟨_, rfl, fun rx => by simp [State.afterPass, *]⟩
  all_goals exact ⟨_, rfl, fun rx => by simp [State.afterPass, hp]⟩

theorem exists_stepKind {s : State} (h : s.phase ≠ .idle) : ∃ k, s.stepKind = some k := by
  unfold State.stepKind
  split
  · exact absurd ‹_› h
  all_goals exact ⟨_, rfl⟩

/-- The bus step of a phase: a waiting step that passes, raises or hangs, or a release. -/
theorem issue_cases {s : State} (hh : s.hung = false) (hp : s.phase ≠ .idle) : ∃ k, s.stepKind = some k ∧
    (s.phase.waits = true ∧
        ((∃ rx, (s.busWait k s.stepData).hung = false ∧ issue s = (s.busWait k s.stepData).afterPass rx) ∨
          (∃ c, issue s = (s.busWait k s.stepData).raise c) ∨
          ((s.busWait k s.stepData).hung = true ∧ issue s = s.busWait k s.stepData)) ∨
      (s.phase = .stopping ∧ k = .stop ∨ s.phase = .rearming ∧ k = .rearm) ∧
        issue s = { s.busRelease k with phase := .idle }) := by
  obtain ⟨k, hk⟩ := exists_stepKind hp
  refine ⟨k, hk, ?_⟩
  rcases Phase.waits_or_releases hp with hw | hr
  · obtain ⟨f, hi, hf⟩ := issue_eq_waitingStep_stepKind hw hk
    refine .inl ⟨hw, ?_⟩
    rcases waitingStep_cases s k s.stepData f hh with ⟨_, _, rx, _, _, hn, e⟩ | ⟨c, _, _, _, _, e⟩ | ⟨_, _, hn, e⟩
    · exact .inl ⟨rx, hn, by rw [hi, e, hf]⟩
    · exact .inr (.inl ⟨c, hi.trans e⟩)
    · exact .inr (.inr ⟨hn, hi.trans e⟩)
  · rcases hr with hr | hr <;> simp only [State.stepKind, hr, Option.some.injEq] at hk <;> subst hk
    · exact .inr ⟨.inl ⟨hr, rfl⟩, by simp only [issue, hr]; exact releaseStep_eq .stop hh⟩
    · exact .inr ⟨.inr ⟨hr, rfl⟩, by simp only [issue, hr]; exact releaseStep_eq .rearm hh⟩

section
variable (t : State) (rx : Byte)
@[simp] theorem State.afterPass_result : (t.afterPass rx).result = t.result := by unfold afterPass; split <;> rfl
@[simp] theorem State.afterPass_trace : (t.afterPass rx).trace = t.trace := by unfold afterPass; split <;> rfl
end

/-- A step that passes goes on in the transaction or to its `STOP` (41_transaction.md R120). -/
theorem afterPass_phase {t : State} (rx : Byte) (hw : t.phase.waits = true) :
    (t.afterPass rx).phase ≠ .idle ∧ (t.afterPass rx).phase ≠ .rearming := by
  cases hp : t.phase <;> simp only [hp, Phase.waits, Bool.false_eq_true] at hw <;> simp only [State.afterPass, hp]
  case wData => unfold afterTxd; split_ifs <;> simp
  case rData => split <;> simp
  all_goals simp

/-! ## The trace of a transaction -/

/-- Only tokens of waiting steps were added since `s`. -/
def WaitedSince (s t : State) : Prop := ∃ tokens, t.trace = s.trace ++ tokens ∧ ∀ tok ∈ tokens, tok.reply ≠ .noAnswer

/-- After those, one release of the bus, by the result (60_exceptions.md R174), and nobody owns it. -/
def ReleasedSince (s t : State) : Prop :=
  (∃ tokens, t.trace = s.trace ++ tokens ++ [if t.result = .arbitrationLost then rearmToken else stopToken] ∧
      ∀ tok ∈ tokens, tok.reply ≠ .noAnswer) ∧
    ∀ e, t.env.ref = some e → e.owned = false

/-- A transaction since `s`: its release comes at the end, and `REARM` is the one after arbitration loss. -/
structure TransactionSince (s t : State) : Prop where
  waited : t.phase ≠ .idle → WaitedSince s t
  rearms : t.phase ≠ .idle → (t.phase = .rearming ↔ t.result = .arbitrationLost)
  released : t.phase = .idle → ReleasedSince s t

theorem WaitedSince.refl (s : State) : WaitedSince s s := ⟨[], by simp, by simp⟩

theorem WaitedSince.busWait {s t : State} (h : WaitedSince s t) (k : StepKind) (d : Byte) :
    WaitedSince s (t.busWait k d) := by
  obtain ⟨l, hl, hn⟩ := h
  refine ⟨l ++ [{ word := k.word d, reply := t.replyTo k d }], by simp [hl], fun tok htok => ?_⟩
  rcases List.mem_append.mp htok with htok | htok
  · exact hn tok htok
  · obtain rfl := List.mem_singleton.mp htok
    exact State.replyTo_ne_noAnswer t k d

theorem WaitedSince.of_trace {s t u : State} (h : WaitedSince s t) (e : u.trace = t.trace) : WaitedSince s u := by
  rwa [WaitedSince, e]

theorem WaitedSince.release {s t : State} (h : WaitedSince s t) {k : StepKind}
    (hk : k = if t.result = .arbitrationLost then .rearm else .stop) :
    ReleasedSince s { t.busRelease k with phase := .idle } := by
  obtain ⟨l, hl, hn⟩ := h
  refine ⟨⟨l, ?_, hn⟩, fun e he => Environment.release_owned he⟩
  subst hk
  by_cases hr : t.result = .arbitrationLost <;> simp [hl, hr, rearmToken, stopToken]

/-- Every bus step of a transaction keeps that. -/
theorem TransactionSince.issue {s t : State} (h : TransactionSince s t) (hh : t.hung = false) (hp : t.phase ≠ .idle) :
    TransactionSince s (issue t) := by
  have hwait := h.waited hp
  have harb := h.rearms hp
  obtain ⟨k, _, ⟨hw, hcases⟩ | ⟨hr, e⟩⟩ := issue_cases hh hp
  · have hwait' : WaitedSince s (t.busWait k t.stepData) := hwait.busWait k _
    have hne : t.phase ≠ .rearming := fun e => by simp [e, Phase.waits] at hw
    have hres : t.result ≠ .arbitrationLost := fun e => hne (harb.mpr e)
    obtain ⟨rx, _, e⟩ | ⟨c, e⟩ | ⟨_, e⟩ := hcases <;> rw [e]
    · obtain ⟨h1, h2⟩ := afterPass_phase (t := t.busWait k t.stepData) rx hw
      exact ⟨fun _ => hwait'.of_trace (by simp), fun _ => by simp [h2, hres], fun e => absurd e h1⟩
    · have hc : recoveryPhase c = .rearming ↔ c = .arbitrationLost := by simp [recoveryPhase]
      refine ⟨fun _ => hwait'.of_trace (by simp), fun _ => by simpa using hc, fun e => ?_⟩
      rcases recoveryPhase_eq c with ⟨_, e'⟩ | ⟨_, e'⟩ <;> exact absurd (e'.symm.trans e) (by simp)
    · exact ⟨fun _ => hwait', fun _ => harb, fun e => absurd e hp⟩
  · rw [e]
    refine ⟨fun e => absurd rfl e, fun e => absurd rfl e, fun _ => hwait.release ?_⟩
    rcases hr with ⟨hr, rfl⟩ | ⟨hr, rfl⟩ <;> rw [hr] at harb
    · rw [if_neg (by simpa using harb)]
    · rw [if_pos (by simpa using harb)]

/-- A transaction that is not empty begins with a `START` (41_transaction.md R110). -/
theorem beginTransaction_phase_nonempty (s : State) (a : BusAddr) {p : List Byte} {n : Byte}
    (hne : ¬(p = [] ∧ n = 0)) :
    (s.beginTransaction a p n).phase = .wStart ∨ (s.beginTransaction a p n).phase = .rStart := by
  rw [State.beginTransaction_phase]
  split_ifs with hp hn
  · exact absurd ⟨hp, hn⟩ hne
  · exact .inr rfl
  · exact .inl rfl

/-- A transaction that is not empty releases the bus once, at its end, unless it hangs. -/
theorem transact_releases (a : BusAddr) {p : List Byte} (n : Byte) (s : State) (hne : ¬(p = [] ∧ n = 0))
    (hl : p.length ≤ maxLen) (hh : (transact a p n s).hung = false) : ReleasedSince s (transact a p n s) := by
  have hbegin : TransactionSince s (s.beginTransaction a p n) := by
    have hw : WaitedSince s (s.beginTransaction a p n) := (WaitedSince.refl s).of_trace (by simp)
    have hr : (s.beginTransaction a p n).result = .ok := by
      rw [State.beginTransaction_result, if_neg hne]
    rcases beginTransaction_phase_nonempty s a hne with e | e <;>
      exact ⟨fun _ => hw, fun _ => by simp only [e, hr, reduceCtorEq], fun e' => by simp only [e, reduceCtorEq] at e'⟩
  have hend : (transact a p n s).phase = .idle := (transact_ends a n s hne hl).resolve_left (by simp [hh])
  have hs : s.hung = false := by
    by_contra hs
    rw [transact_hung a p n s (by simpa using hs)] at hh
    exact hs hh
  have hsince : TransactionSince s (transact a p n s) := by
    simp only [transact, hs, Bool.false_eq_true, ↓reduceIte, if_neg hne]
    exact engine_induct (P := TransactionSince s) (fun t ht hh hp => ht.issue hh hp) _ _ hbegin
  exact hsince.released hend

@[simp] theorem respondXact_hung_eq (s : State) : (respondXact s).hung = s.hung := by
  unfold respondXact; split <;> simp

@[simp] theorem respondXact_env (s : State) : (respondXact s).env = s.env := by
  unfold respondXact; split <;> simp

@[simp] theorem respondXact_trace (s : State) : (respondXact s).trace = s.trace := by
  unfold respondXact; split <;> simp

@[simp] theorem respondXact_result (s : State) : (respondXact s).result = s.result := by
  unfold respondXact; split <;> simp

/-- Only `XACT.INV` is empty (41_transaction.md R111). -/
theorem xactOperands_nonempty {i : Instr} {a : BusAddr} {p : List Byte} {n : Byte}
    (h : xactOperands i = some (a, p, n)) (hw : i.wf = true) (hi : ∀ b, i ≠ .xactInv b) : ¬(p = [] ∧ n = 0) := by
  cases i <;> simp only [xactOperands, Option.some.injEq, Prod.mk.injEq, reduceCtorEq] at h <;>
    obtain ⟨rfl, rfl, rfl⟩ := h <;> rintro ⟨hp, hn⟩
  case xactInv => exact hi _ rfl
  all_goals simp [Instr.wf, hp, hn] at hw

/-- Settles O39: the transaction releases the bus at its end, and the response adds no token. -/
theorem transactionReleasesBusOnce : Obligations.TransactionReleasesBusOnce := by
  intro s t i hi hw hne hs h hh
  obtain ⟨⟨a, p, n⟩, ho⟩ := Option.isSome_iff_exists.mp hi
  rw [exec_xact ho, directTransaction, whenIdle_idle hs] at h
  cases h
  obtain ⟨htrace, howned⟩ : ReleasedSince s.accept (transact a p n s.accept) :=
    transact_releases a n _ (xactOperands_nonempty ho hw hne) (xactOperands_length ho hw) (by simpa using hh)
  exact ⟨by simpa using htrace, by simpa using howned⟩

end Sys2Proof.Machine

/-! What a transaction leaves of the registers: only its payload is stored, and only where it is addressed. -/

namespace Sys2Proof.Machine

open Config

/-! ## Peripherals and operands along the engine's bus steps -/

/-- Every bus step of the engine acts on every peripheral. -/
theorem issue_peripherals {s : State} (hh : s.hung = false) (hp : s.phase ≠ .idle) : ∃ k, s.stepKind = some k ∧
    (issue s).peripherals = s.peripherals.map (Peripheral.act s.params k s.stepData) := by
  obtain ⟨k, hk, ⟨_, hcases⟩ | ⟨hr, e⟩⟩ := issue_cases hh hp <;> refine ⟨k, hk, ?_⟩
  · rw [← State.busWait_peripherals]
    obtain ⟨rx, _, e⟩ | ⟨c, e⟩ | ⟨_, e⟩ := hcases <;> rw [e]
    · exact peripherals_of_env (State.afterPass_env _ _)
    · exact peripherals_of_env (State.raise_env _ _)
  · have hk' : k = .stop ∨ k = .rearm := by rcases hr with ⟨_, rfl⟩ | ⟨_, rfl⟩ <;> simp
    rw [e, ← State.busRelease_peripherals s s.stepData hk']
    exact peripherals_of_env rfl

@[simp] theorem issue_addr (s : State) : (issue s).addr = s.addr :=
  issue_keeps State.addr (by simp) (by simp) (by simp) (by simp) (by simp) s

@[simp] theorem issue_wlen (s : State) : (issue s).wlen = s.wlen :=
  issue_keeps State.wlen (by simp) (by simp) (by simp) (by simp) (by simp) s

@[simp] theorem issue_rlen (s : State) : (issue s).rlen = s.rlen :=
  issue_keeps State.rlen (by simp) (by simp) (by simp) (by simp) (by simp) s

@[simp] theorem issue_wbuf (s : State) : (issue s).wbuf = s.wbuf :=
  issue_keeps State.wbuf (by simp) (by simp) (by simp) (by simp) (by simp) s

@[simp] theorem Peripheral.transmit_answersAt (q : Params) (d : Byte) (p : Peripheral) (a : BusAddr) :
    (p.transmit q d).answersAt a = p.answersAt a := by
  unfold Peripheral.transmit; split <;> rfl

@[simp] theorem addrWrite_addr (a : BusAddr) : (addrWrite a).extractLsb' 1 7 = a :=
  BitVec.extractLsb'_append_eq_left

@[simp] theorem addrRead_addr (a : BusAddr) : (addrRead a).extractLsb' 1 7 = a :=
  BitVec.extractLsb'_append_eq_left

/-- The operand registers hold the operands of the transaction (41_transaction.md R110). -/
structure Loaded (a : BusAddr) (p : List Byte) (n : Byte) (t : State) : Prop where
  addr : t.addr = a
  wlen : t.wlen.toNat = p.length
  rlen : t.rlen = n
  wbuf : t.wbuf.toList.take p.length = p

theorem Loaded.beginTransaction (a : BusAddr) {p : List Byte} (n : Byte) (s : State) (hl : p.length ≤ maxLen) :
    Loaded a p n (s.beginTransaction a p n) where
  addr := by simp
  wlen := by simp only [maxLen] at hl; simp; omega
  rlen := by simp
  wbuf := by rw [State.beginTransaction_wbuf]; exact loadBuffer_take _ _ hl

theorem Loaded.issue {a : BusAddr} {p : List Byte} {n : Byte} {t : State} (h : Loaded a p n t) :
    Loaded a p n (issue t) where
  addr := by rw [issue_addr, h.addr]
  wlen := by rw [issue_wlen, h.wlen]
  rlen := by rw [issue_rlen, h.rlen]
  wbuf := by rw [issue_wbuf, h.wbuf]

theorem Loaded.busWait {a : BusAddr} {p : List Byte} {n : Byte} {t : State} (h : Loaded a p n t) (k : StepKind)
    (d : Byte) : Loaded a p n (t.busWait k d) :=
  ⟨h.addr, h.wlen, h.rlen, h.wbuf⟩

/-- The byte `TXD` sends is the payload's (41_transaction.md R115). -/
theorem Loaded.wbufAt {a : BusAddr} {p : List Byte} {n : Byte} {t : State} (h : Loaded a p n t) {i : Byte}
    (hi : i.toNat < p.length) : t.wbufAt i = p[i.toNat] := by
  have e : t.wbuf.toList[i.toNat]? = p[i.toNat]? := by
    conv_rhs => rw [← h.wbuf]
    rw [List.getElem?_take_of_lt hi]
  rw [State.wbufAt, List.getD_eq_getElem?_getD, e, List.getElem?_eq_getElem hi, Option.getD_some]

/-! ## One peripheral during the write phase -/

/-- Where a transaction to `a` with payload `l` finds a peripheral that was `p` when it began: selected only if `p`
answers at `a`, with its pointer where the payload has brought it (20_memory.md R48). -/
def SelectedIn (a : BusAddr) (l : List Byte) (p q : Peripheral) (t : State) : Prop :=
  match t.phase with
  | .wStart => l ≠ [] ∧ q.answersAt a = p.answersAt a
  | .wAddr => l ≠ [] ∧ q.answersAt a = p.answersAt a ∧ q.sel = .none
  | .wData => t.idx.toNat < l.length ∧ (q.sel = .none ∨ p.answersAt a = true ∧
      (q.sel = .wrFirst ∧ t.idx = 0 ∨ q.sel = .wr ∧ t.idx ≠ 0 ∧ q.ptr + 1 = l.headD 0 + t.idx))
  | _ => True

theorem selectedIn_of_not_writing {a : BusAddr} {l : List Byte} {p q : Peripheral} {t : State}
    (h : t.phase.writing = false) : SelectedIn a l p q t := by
  cases hp : t.phase <;> simp_all [SelectedIn, Phase.writing]

/-- The pointer after `i` payload bytes names a register the payload reaches (20_memory.md R45). -/
theorem reaches_of_pointer {l : List Byte} {i x : Byte} (hi : i ≠ 0) (hl : i.toNat < l.length)
    (hx : x + 1 = l.headD 0 + i) : reaches l x := by
  cases l with
  | nil => simp at hl
  | cons r vs =>
    have hi' := toNat_ne_zero.mp hi
    refine ⟨r, vs, rfl, i.toNat - 1, by simp only [List.length_cons] at hl; omega, ?_⟩
    simp only [List.headD_cons] at hx
    bv_omega

theorem selectedIn_transmit {a : BusAddr} {l : List Byte} {n : Byte} {p q : Peripheral} {t : State} (c : Params)
    (hl : l.length ≤ maxLen) (ho : Loaded a l n t) (hp : t.phase = .wData) (h : SelectedIn a l p q t) :
    SelectedIn a l p (q.transmit c (t.wbufAt t.idx))
      { t with idx := t.idx + 1, phase := afterTxd { t with idx := t.idx + 1 } } := by
  simp only [SelectedIn, hp] at h
  obtain ⟨hi, hsel⟩ := h
  have hlt : t.idx.toNat < 255 := Nat.lt_of_lt_of_le hi hl
  have e : (t.idx + 1).toNat = t.idx.toNat + 1 := toNat_add_one hlt
  have hne : t.idx + 1 ≠ 0 := toNat_ne_zero.mpr (by omega)
  by_cases hmore : (t.idx + 1).toNat < t.wlen.toNat
  · simp only [SelectedIn, afterTxd, hmore, ↓reduceIte]
    refine ⟨ho.wlen ▸ hmore, ?_⟩
    rcases hsel with hs | ⟨ha, ⟨hs, h0⟩ | ⟨hs, _, hptr⟩⟩
    · exact .inl (by simp [Peripheral.transmit, hs])
    · rw [Peripheral.transmit_wrFirst _ _ hs, ho.wbufAt hi]
      refine .inr ⟨ha, .inr ⟨rfl, hne, ?_⟩⟩
      cases l with
      | nil => simp at hi
      | cons r vs => simp [h0]
    · rw [Peripheral.transmit_wr _ _ hs]
      exact .inr ⟨ha, .inr ⟨hs, hne, by simp only [hptr]; ac_rfl⟩⟩
  · refine selectedIn_of_not_writing ?_
    simp only [afterTxd, hmore, ↓reduceIte]
    split <;> rfl

/-- Every passing bus step of a transaction keeps that. -/
theorem SelectedIn.afterPass {a : BusAddr} {l : List Byte} {n : Byte} {p q : Peripheral} {t : State} {k : StepKind}
    (c : Params) (hl : l.length ≤ maxLen) (ho : Loaded a l n t) (h : SelectedIn a l p q t)
    (hw : t.phase.waits = true) (hk : t.stepKind = some k) (rx : Byte) :
    SelectedIn a l p (q.act c k t.stepData) (t.afterPass rx) := by
  cases hp : t.phase <;> simp only [hp, Phase.waits, Bool.false_eq_true] at hw <;>
    simp only [State.stepKind, hp, Option.some.injEq] at hk <;> subst hk <;>
    simp only [State.afterPass, hp, State.stepData]
  case wStart =>
    simp only [SelectedIn, hp] at h
    exact ⟨h.1, h.2, rfl⟩
  case wAddr =>
    simp only [SelectedIn, hp] at h
    obtain ⟨hne, ha, hs⟩ := h
    refine ⟨List.length_pos_iff.mpr hne, ?_⟩
    rw [Peripheral.act, addrWrite_addr, ho.addr, ha]
    split
    · exact .inr ⟨‹_›, .inl ⟨rfl, rfl⟩⟩
    · exact .inl hs
  case wData => exact selectedIn_transmit c hl ho hp h
  case rStart => exact selectedIn_of_not_writing rfl
  case rAddr => exact selectedIn_of_not_writing rfl
  case rData => exact selectedIn_of_not_writing (by simp only; split <;> rfl)

/-! ## The memory frame of a transaction -/

/-- Register `x` of the `j`-th peripheral reads as `p`'s, and the peripheral is where the transaction finds it. -/
def KeepsRegister (a : BusAddr) (l : List Byte) (n : Byte) (j : Nat) (p : Peripheral) (x : Byte) (t : State) : Prop :=
  Loaded a l n t ∧ ∃ q, t.peripherals[j]? = some q ∧ q.reg.read x.toNat = p.reg.read x.toNat ∧
    (t.hung = false → SelectedIn a l p q t)

theorem stepKind_txd {s : State} (h : s.stepKind = some .txd) : s.phase = .wData := by
  cases hp : s.phase <;> simp only [State.stepKind, hp, Option.some.injEq, reduceCtorEq] at h
  case wData => rfl
  case rData => split at h <;> cases h

theorem KeepsRegister.issue {a : BusAddr} {l : List Byte} {n : Byte} {j : Nat} {p : Peripheral} {x : Byte} {t : State}
    (hl : l.length ≤ maxLen) (hx : ¬(p.answersAt a = true ∧ reaches l x)) (h : KeepsRegister a l n j p x t)
    (hh : t.hung = false) (hp : t.phase ≠ .idle) : KeepsRegister a l n j p x (issue t) := by
  obtain ⟨ho, q, hq, hread, hsel⟩ := h
  specialize hsel hh
  obtain ⟨k, hk, hcases⟩ := issue_cases hh hp
  obtain ⟨k', hk', he⟩ := issue_peripherals hh hp
  obtain rfl : k = k' := Option.some.inj (hk.symm.trans hk')
  refine ⟨ho.issue, q.act t.params k t.stepData, by rw [he, List.getElem?_map, hq]; rfl, ?_, fun hn => ?_⟩
  · rw [Peripheral.read_act _ _ _ fun hk' => ?_, hread]
    rintro ⟨hs, rfl⟩
    subst hk'
    simp only [SelectedIn, stepKind_txd hk] at hsel
    obtain ⟨hi, e | ⟨ha, ⟨e, _⟩ | ⟨_, hne, hptr⟩⟩⟩ := hsel
    · cases hs.symm.trans e
    · cases hs.symm.trans e
    · exact hx ⟨ha, reaches_of_pointer hne hi hptr⟩
  · obtain ⟨hw, ⟨rx, _, e⟩ | ⟨c, e⟩ | ⟨hn', e⟩⟩ | ⟨_, e⟩ := hcases <;> rw [e] at hn ⊢
    · exact SelectedIn.afterPass (t := t.busWait k t.stepData) t.params hl (ho.busWait _ _) hsel hw hk rx
    · refine selectedIn_of_not_writing ?_
      rcases recoveryPhase_eq c with ⟨_, e⟩ | ⟨_, e⟩ <;> simp only [State.raise_phase, e] <;> rfl
    · exact absurd (hn.symm.trans hn') (by simp)
    · exact selectedIn_of_not_writing rfl

/-- A transaction keeps the registers its payload does not reach, and every register of a peripheral it does not
address (20_memory.md R45, R48). -/
theorem transact_keeps_register {a : BusAddr} {l : List Byte} (n : Byte) {s : State} {j : Nat} {p : Peripheral}
    {x : Byte} (hl : l.length ≤ maxLen) (hp : s.peripherals[j]? = some p)
    (hx : ¬(p.answersAt a = true ∧ reaches l x)) : (transact a l n s).registerAt j x = s.registerAt j x := by
  have henv : (s.beginTransaction a l n).env = s.env := by simp
  unfold transact
  split_ifs with hh hne
  · rfl
  · exact registerAt_of_env henv j x
  have hbegin : KeepsRegister a l n j p x (s.beginTransaction a l n) := by
    refine ⟨Loaded.beginTransaction a n s hl, p, by rwa [peripherals_of_env henv], rfl, fun _ => ?_⟩
    by_cases h : l = []
    · refine selectedIn_of_not_writing ?_
      have hn : n ≠ 0#8 := fun hn => hne ⟨h, hn⟩
      simp [h, hn, Phase.writing]
    · simp [SelectedIn, h]
  obtain ⟨_, q, hq, hread, _⟩ := engine_induct (P := KeepsRegister a l n j p x)
    (fun t ht hh hp => ht.issue hl hx hh hp) (s.beginTransaction a l n).stepBound _ hbegin
  simp only [State.registerAt, hq, hp, Option.map_some, hread]

/-- Settles O40: acceptance and response leave the environment, and the transaction keeps the register. -/
theorem transactionStoresOnlyItsPayload : Obligations.TransactionStoresOnlyItsPayload := by
  intro s t i a l n j p x ho hw h hp hx
  rw [exec_xact ho] at h
  cases h
  unfold directTransaction State.whenIdle
  split
  · rfl
  · rw [registerAt_of_env (respondXact_env _)]
    exact transact_keeps_register n (s := s.accept) (xactOperands_length ho hw) hp hx

end Sys2Proof.Machine

/-! A transaction with the one peripheral that answers: every step passes, the payload is sent to it in order and the
bytes received are its registers in order. -/

namespace Sys2Proof.Machine

open Config

/-! ## A reference environment with one peripheral and nothing scripted -/

/-- The reference environment holds just the peripheral `q`, and nothing is scripted. -/
structure State.Alone (t : State) (q : Peripheral) : Prop where
  script : t.env.script = []
  ref : ∃ o, t.env.ref = some { owned := o, peripherals := [q] }

/-- The peripheral lets a waiting step of kind `k` with byte `d` pass (20_memory.md R47 to R49). -/
def Peripheral.acks (k : StepKind) (d : Byte) (q : Peripheral) : Bool :=
  match k with
  | .slaw => q.answersAt (d.extractLsb' 1 7)
  | .slar => q.answersAt (d.extractLsb' 1 7)
  | .txd => q.sel == .wrFirst || q.sel == .wr
  | _ => true

section
variable {t u : State} {q : Peripheral}

theorem State.Alone.of_env (h : t.Alone q) (e : u.env = t.env) : u.Alone q :=
  ⟨by rw [e, h.script], by rw [e]; exact h.ref⟩

theorem State.Alone.peripherals (h : t.Alone q) : t.peripherals = [q] := by
  obtain ⟨o, ho⟩ := h.ref
  simp [State.peripherals, ho]

theorem State.Alone.registerAt (h : t.Alone q) (x : Byte) : t.registerAt 0 x = some (q.reg.read x.toNat) := by
  simp [State.registerAt, h.peripherals]

theorem State.Alone.busWait (h : t.Alone q) (k : StepKind) (d : Byte) :
    (t.busWait k d).Alone (q.act t.params k d) := by
  obtain ⟨o, ho⟩ := h.ref
  exact ⟨by simp [Environment.draw, ho, h.script], by simp [Environment.draw, ho, Env0.answer_peripherals]⟩

theorem State.Alone.busStop (h : t.Alone q) : (t.busRelease .stop).Alone (q.act t.params .stop 0) := by
  obtain ⟨o, ho⟩ := h.ref
  exact ⟨h.script, false, by simp [Environment.release, ho, Env0.stop, Peripheral.act]⟩

/-- An answer without low polls is never given up (40_bus_steps.md R90). -/
theorem replyOf_polls_zero (m : WaitLimit) (st rx : Byte) :
    replyOf m { w := .polls 0, status := st, rx := rx } = .ready 0 st rx := by
  rcases m with _ | ⟨l, pos⟩
  · rfl
  · simp [replyOf, Nat.not_le.mpr pos]

/-- `ENV0` answers at once; the step passes if the peripheral lets it, and a byte read is the peripheral's. -/
theorem State.Alone.replyTo (h : t.Alone q) {k : StepKind} {d : Byte} (hk : q.acks k d = true) :
    ∃ st rx, t.replyTo k d = .ready 0 st rx ∧ classifyStatus k st = none ∧
      (k = .rxa ∨ k = .rxn → q.sel = .rd → rx = q.readAtPtr) := by
  obtain ⟨o, ho⟩ := h.ref
  have hdraw : (t.env.draw t.params t.free k d).2 =
      (Env0.answer t.params { owned := o, peripherals := [q] } k d).2 := by
    simp [Environment.draw, ho, Environment.scripted, h.script]
  unfold State.replyTo
  rw [hdraw]
  cases k <;> simp only [Peripheral.acks] at hk <;>
    refine ⟨_, _, replyOf_polls_zero _ _ _, ?_, fun hr hs => ?_⟩
  case start.refine_1 => cases o <;> rfl
  case slaw.refine_1 => simp [hk, classifyStatus, passes]
  case slar.refine_1 => simp [hk, classifyStatus, passes]
  case txd.refine_1 => simp [hk, classifyStatus, passes]
  case rxa.refine_1 => rfl
  case rxn.refine_1 => rfl
  case stop.refine_1 => rfl
  case rearm.refine_1 => rfl
  case rxa.refine_2 => simp [hs]
  case rxn.refine_2 => simp [hs]
  all_goals simp at hr

/-- A bus step the peripheral lets pass. -/
theorem State.Alone.issue (h : t.Alone q) (hh : t.hung = false) (hw : t.phase.waits = true) {k : StepKind}
    (hk : t.stepKind = some k) (hq : q.acks k t.stepData = true) :
    ∃ rx, issue t = (t.busWait k t.stepData).afterPass rx ∧ (t.busWait k t.stepData).hung = false ∧
      (k = .rxa ∨ k = .rxn → q.sel = .rd → rx = q.readAtPtr) := by
  obtain ⟨st, rx, hr, hc, hrx⟩ := h.replyTo hq
  obtain ⟨f, hi, hf⟩ := issue_eq_waitingStep_stepKind hw hk
  exact ⟨rx, by rw [hi, ← hf]; simp [State.waitingStep, hh, hr, hc], by simp [hh, hr], hrx⟩

end

/-- Selecting a peripheral changes nothing of where it answers. -/
@[simp] theorem Peripheral.answersAt_select (p : Peripheral) (m : Selection) (a : BusAddr) :
    Peripheral.answersAt { p with sel := m } a = p.answersAt a := rfl

theorem Peripheral.act_slaw (c : Params) {p : Peripheral} {a : BusAddr} (h : p.answersAt a = true) :
    p.act c .slaw (addrWrite a) = { p with sel := .wrFirst } := by
  simp [Peripheral.act, h]

theorem Peripheral.act_slar (c : Params) {p : Peripheral} {a : BusAddr} (h : p.answersAt a = true) :
    p.act c .slar (addrRead a) = { p with sel := .rd } := by
  simp [Peripheral.act, h]

theorem Peripheral.act_rxa (c : Params) (d : Byte) {p : Peripheral} (h : p.sel = .rd) :
    p.act c .rxa d = { p with ptr := p.ptr + 1 } := by
  simp [Peripheral.act, Peripheral.receive, h]

theorem Peripheral.act_rxn (c : Params) (d : Byte) {p : Peripheral} (h : p.sel = .rd) :
    p.act c .rxn d = { p with ptr := p.ptr + 1, sel := .none } := by
  simp [Peripheral.act, Peripheral.receive, h]

/-! ## What the peripheral is sent and what it returns -/

/-- The peripheral after these `TXD`. -/
def Peripheral.transmitAll (c : Params) (l : List Byte) (p : Peripheral) : Peripheral :=
  l.foldl (fun p d => p.transmit c d) p

/-- The peripheral after an address step for writing and these bytes (20_memory.md R48). -/
def Peripheral.sent (c : Params) (l : List Byte) (p : Peripheral) : Peripheral :=
  Peripheral.transmitAll c l { p with sel := .wrFirst }

/-- The `m` registers from the pointer on, which wraps after `0xFF` (20_memory.md R49). -/
def Peripheral.registersFrom (w : Peripheral) (m : Nat) : List Byte :=
  (List.range m).map fun j => w.reg.read (w.ptr + BitVec.ofNat 8 j).toNat

@[simp] theorem Peripheral.transmitAll_nil (c : Params) (p : Peripheral) : p.transmitAll c [] = p := rfl

theorem Peripheral.transmitAll_cons (c : Params) (v : Byte) (vs : List Byte) (p : Peripheral) :
    p.transmitAll c (v :: vs) = (p.transmit c v).transmitAll c vs := rfl

@[simp] theorem Peripheral.sent_nil (c : Params) (p : Peripheral) : p.sent c [] = { p with sel := .wrFirst } := rfl

/-- The first byte of a payload is the pointer, the rest are stored (20_memory.md R45). -/
theorem Peripheral.sent_cons (c : Params) (r : Byte) (vs : List Byte) (p : Peripheral) :
    p.sent c (r :: vs) = Peripheral.transmitAll c vs { p with ptr := r, sel := .wr } := rfl

theorem Peripheral.sent_concat (c : Params) (l : List Byte) (d : Byte) (p : Peripheral) :
    p.sent c (l ++ [d]) = (p.sent c l).transmit c d := by
  simp [Peripheral.sent, Peripheral.transmitAll]

@[simp] theorem Peripheral.sent_answersAt (c : Params) (l : List Byte) (p : Peripheral) (a : BusAddr) :
    (p.sent c l).answersAt a = p.answersAt a := by
  induction l using List.reverseRecOn with
  | nil => rfl
  | append_singleton l d ih => rw [Peripheral.sent_concat, Peripheral.transmit_answersAt, ih]

theorem Peripheral.transmit_selected {c : Params} {d : Byte} {p : Peripheral} (h : p.sel = .wrFirst ∨ p.sel = .wr) :
    (p.transmit c d).sel = .wr := by
  rcases h with h | h
  · rw [Peripheral.transmit_wrFirst _ _ h]
  · rw [Peripheral.transmit_wr _ _ h, h]

theorem Peripheral.sent_selected (c : Params) (l : List Byte) (p : Peripheral) :
    (p.sent c l).sel = .wrFirst ∨ (p.sent c l).sel = .wr := by
  induction l using List.reverseRecOn with
  | nil => exact .inl rfl
  | append_singleton l d ih => exact .inr (by rw [Peripheral.sent_concat, Peripheral.transmit_selected ih])

theorem Peripheral.registersFrom_succ (w : Peripheral) (i : Byte) :
    w.registersFrom (i.toNat + 1) = w.registersFrom i.toNat ++ [w.reg.read (w.ptr + i).toNat] := by
  simp [Peripheral.registersFrom, List.range_succ]

/-! ## The transaction -/

/-- The peripheral `q` at each phase of a transaction with payload `l` that reads `n` bytes, having been `p`. -/
def ServedIn (c : Params) (l : List Byte) (n : Byte) (p q : Peripheral) (t : State) : Prop :=
  match t.phase with
  | .wStart => q = p
  | .wAddr => q = { p with sel := .none }
  | .wData => q = p.sent c (l.take t.idx.toNat)
  | .rStart => { q with sel := .none } = { p.sent c l with sel := .none }
  | .rAddr => q = { p.sent c l with sel := .none }
  | .rData => q = { p.sent c l with sel := .rd, ptr := (p.sent c l).ptr + t.idx } ∧
      t.received = (p.sent c l).registersFrom t.idx.toNat
  | .stopping => { q with sel := .none } = { p.sent c l with sel := .none, ptr := (p.sent c l).ptr + n } ∧
      t.received = (p.sent c l).registersFrom n.toNat
  | .idle => q = Peripheral.act c .stop 0 { p.sent c l with ptr := (p.sent c l).ptr + n } ∧
      t.received = (p.sent c l).registersFrom n.toNat
  | .rearming => False

/-- A transaction that has met no failure, with the one peripheral it addresses. -/
structure Served (c : Params) (a : BusAddr) (l : List Byte) (n : Byte) (p : Peripheral) (t : State) : Prop where
  params : t.params = c
  hung : t.hung = false
  result : t.result = .ok
  loaded : Loaded a l n t
  phaseInv : PhaseInv t
  served : ∃ q, t.Alone q ∧ ServedIn c l n p q t

section
variable {c : Params} {a : BusAddr} {l : List Byte} {n : Byte} {p q : Peripheral} {t : State}

/-- The peripheral lets every step of the transaction pass. -/
theorem ServedIn.acks (h : ServedIn c l n p q t) (ha : p.answersAt a = true) (ho : t.addr = a)
    (hw : t.phase.waits = true) {k : StepKind} (hk : t.stepKind = some k) : q.acks k t.stepData = true := by
  cases hp : t.phase <;> simp only [hp, Phase.waits, Bool.false_eq_true] at hw <;>
    simp only [State.stepKind, hp, Option.some.injEq] at hk <;> subst hk <;>
    simp only [ServedIn, hp] at h <;> simp only [State.stepData, hp, ho]
  case wStart => rfl
  case wAddr => subst h; simpa [Peripheral.acks] using ha
  case wData => subst h; simpa [Peripheral.acks] using Peripheral.sent_selected c _ p
  case rStart => rfl
  case rAddr => subst h; simpa [Peripheral.acks] using ha
  case rData => split <;> rfl

theorem received_eq_nil {s : State} (h : s.rcount = 0) : s.received = [] := by simp [State.received, h]

/-- A byte of the payload is sent, and the next phase is the one R96 names. -/
theorem servedIn_transmit (hp : t.phase = .wData) (ho : Loaded a l n t) (hi : PhaseInv t) :
    ServedIn c l n p ((p.sent c (l.take t.idx.toNat)).transmit c (t.wbufAt t.idx))
      { t with idx := t.idx + 1, phase := afterTxd { t with idx := t.idx + 1 } } := by
  simp only [PhaseInv, hp] at hi
  obtain ⟨_, hc, _, hlt⟩ := hi
  have hlen := ho.wlen
  rw [hlen] at hlt
  have e : (t.idx + 1).toNat = t.idx.toNat + 1 := toNat_add_one (by have := t.wlen.isLt; omega)
  have hsent : (p.sent c (l.take t.idx.toNat)).transmit c (t.wbufAt t.idx) = p.sent c (l.take (t.idx + 1).toNat) := by
    rw [e, List.take_add_one, List.getElem?_eq_getElem hlt, Option.toList_some, Peripheral.sent_concat,
      ho.wbufAt hlt]
  rw [hsent]
  by_cases hmore : (t.idx + 1).toNat < t.wlen.toNat
  · simp only [ServedIn, afterTxd, hmore, ↓reduceIte]
  · have hall : l.take (t.idx + 1).toNat = l := List.take_of_length_le (by omega)
    rw [hall]
    by_cases hn : t.rlen = 0
    · have hn' : n = 0 := ho.rlen ▸ hn
      simp only [ServedIn, afterTxd, hmore, hn, ↓reduceIte, hn']
      exact ⟨by simp, received_eq_nil hc⟩
    · simp only [ServedIn, afterTxd, hmore, hn, ↓reduceIte, ne_eq, not_false_eq_true]

/-- A register is received, and the next phase is the one R97 and R101 name. -/
theorem servedIn_receive (h : ServedIn c l n p q t) (hp : t.phase = .rData) (ho : Loaded a l n t) (hi : PhaseInv t)
    {k : StepKind} (hk : k = if t.idx.toNat + 1 < t.rlen.toNat then .rxa else .rxn) {rx : Byte}
    (hrx : k = .rxa ∨ k = .rxn → q.sel = .rd → rx = q.readAtPtr) :
    ServedIn c l n p (q.act c k 0)
      { t.storeReceived rx with phase := if t.idx.toNat + 1 < t.rlen.toNat then .rData else .stopping } := by
  simp only [ServedIn, hp] at h
  simp only [PhaseInv, hp] at hi
  obtain ⟨hq, hread⟩ := h
  obtain ⟨_, _, hc, hlt⟩ := hi
  have hlt' : t.idx.toNat < 255 := by have := t.rlen.isLt; omega
  have e : (t.idx + 1).toNat = t.idx.toNat + 1 := toNat_add_one hlt'
  have hsel : q.sel = .rd := by rw [hq]
  have hbyte : rx = (p.sent c l).reg.read ((p.sent c l).ptr + t.idx).toNat := by
    rw [hrx (by rw [hk]; split <;> simp) hsel, hq]
    rfl
  have hrec : (t.storeReceived rx).received = (p.sent c l).registersFrom (t.idx + 1).toNat := by
    rw [received_store rx hc (hc ▸ hlt'), hread, e, Peripheral.registersFrom_succ, hbyte]
  by_cases hmore : t.idx.toNat + 1 < t.rlen.toNat
  · rw [hk, if_pos hmore, Peripheral.act_rxa c 0 hsel]
    simp only [ServedIn, hmore, ↓reduceIte]
    exact ⟨by simp [hq, BitVec.add_assoc], hrec⟩
  · have hend : t.idx + 1 = n := BitVec.eq_of_toNat_eq (by rw [← ho.rlen]; omega)
    rw [hk, if_neg hmore, Peripheral.act_rxn c 0 hsel]
    simp only [ServedIn, hmore, ↓reduceIte]
    rw [hend] at hrec
    exact ⟨by simp [hq, ← hend, BitVec.add_assoc], hrec⟩

/-- A passing step leads the peripheral to where the next phase has it. -/
theorem ServedIn.afterPass (h : ServedIn c l n p q t) (ha : p.answersAt a = true) (ho : Loaded a l n t)
    (hi : PhaseInv t) (hw : t.phase.waits = true) {k : StepKind} (hk : t.stepKind = some k) {rx : Byte}
    (hrx : k = .rxa ∨ k = .rxn → q.sel = .rd → rx = q.readAtPtr) :
    ServedIn c l n p (q.act c k t.stepData) (t.afterPass rx) := by
  have haddr := ho.addr
  cases hp : t.phase <;> simp only [hp, Phase.waits, Bool.false_eq_true] at hw <;>
    simp only [State.stepKind, hp, Option.some.injEq] at hk <;>
    simp only [State.afterPass, hp, State.stepData, haddr]
  case wStart =>
    simp only [ServedIn, hp] at h
    subst hk h
    rfl
  case wAddr =>
    simp only [ServedIn, hp] at h
    subst hk h
    rw [Peripheral.act_slaw c (by simpa using ha)]
    rfl
  case wData =>
    simp only [ServedIn, hp] at h
    subst hk h
    exact servedIn_transmit hp ho hi
  case rStart =>
    simp only [ServedIn, hp] at h
    subst hk
    exact h
  case rAddr =>
    simp only [ServedIn, hp] at h
    simp only [PhaseInv, hp] at hi
    obtain ⟨_, hc, _⟩ := hi
    subst hk h
    rw [Peripheral.act_slar c (by simpa using ha)]
    exact ⟨by simp, received_eq_nil hc⟩
  case rData => exact servedIn_receive h hp ho hi hk.symm hrx

/-- The release at the end (20_memory.md R47). -/
theorem ServedIn.stop (h : ServedIn c l n p q t) (hp : t.phase = .stopping) :
    ServedIn c l n p (q.act c .stop 0) { t.busRelease .stop with phase := .idle } := by
  simp only [ServedIn, hp] at h
  obtain ⟨hq, hrec⟩ := h
  exact ⟨(congrArg (Peripheral.act c .stop 0) hq :), hrec⟩

/-- Every bus step of the transaction passes. -/
theorem Served.issue (ha : p.answersAt a = true) (h : Served c a l n p t) (hp : t.phase ≠ .idle) :
    Served c a l n p (issue t) := by
  obtain ⟨rfl, hh, hres, hload, hinv, q, hq, hs⟩ := h
  obtain ⟨k, hk⟩ := exists_stepKind hp
  have hload' := hload.issue
  rcases Phase.waits_or_releases hp with hw | hr
  · obtain ⟨rx, e, hn, hrx⟩ := hq.issue hh hw hk (hs.acks ha hload.addr hw hk)
    rw [e] at hload' ⊢
    exact ⟨by simp, by simpa using hn, by simp [hres], hload',
      phaseInv_afterPass (t := t.busWait k t.stepData) rx hw hinv, _,
      (hq.busWait k t.stepData).of_env (State.afterPass_env _ _),
      ServedIn.afterPass (t := t.busWait k t.stepData) hs ha (hload.busWait _ _) hinv hw hk hrx⟩
  · have hstop : t.phase = .stopping := hr.resolve_right fun e => by simp only [ServedIn, e] at hs
    have e : issue t = { t.busRelease .stop with phase := .idle } := by
      simp only [Machine.issue, hstop]
      exact releaseStep_eq .stop hh
    simp only [PhaseInv, hstop] at hinv
    obtain ⟨_, _, hread⟩ := hinv
    rw [e] at hload' ⊢
    exact ⟨rfl, hh, hres, hload', hread, _, hq.busStop.of_env rfl, hs.stop hstop⟩

/-- A transaction that begins with the one peripheral it addresses. -/
theorem served_begin (h : t.Alone p) (hh : t.hung = false) (hl : l.length ≤ maxLen) (hne : ¬(l = [] ∧ n = 0)) :
    Served t.params a l n p (t.beginTransaction a l n) := by
  refine ⟨by simp, by simpa using hh, by rw [State.beginTransaction_result, if_neg hne],
    Loaded.beginTransaction a n t hl, ?_, p, h.of_env (by simp), ?_⟩ <;> by_cases hl' : l = []
  · have hn : n ≠ 0#8 := fun hn => hne ⟨hl', hn⟩
    simp [PhaseInv, hl', hn]
  · simpa [PhaseInv, hl'] using payloadLength_ne_zero hl' hl
  · have hn : n ≠ 0#8 := fun hn => hne ⟨hl', hn⟩
    simp [ServedIn, hl', hn]
  · simp [ServedIn, hl']

end

/-- A transaction with the one peripheral it addresses ends `OK`: the payload was sent to the peripheral, the bytes
received are its registers from the pointer on, and the `STOP` is done (20_memory.md R47 to R49). -/
theorem transact_served {a : BusAddr} {l : List Byte} {n : Byte} {p : Peripheral} {s : State} (h : s.Alone p)
    (ha : p.answersAt a = true) (hh : s.hung = false) (hl : l.length ≤ maxLen) (hne : ¬(l = [] ∧ n = 0)) :
    (transact a l n s).hung = false ∧ (transact a l n s).result = .ok ∧
      (transact a l n s).received = (p.sent s.params l).registersFrom n.toNat ∧
      (transact a l n s).Alone
        (Peripheral.act s.params .stop 0 { p.sent s.params l with ptr := (p.sent s.params l).ptr + n }) := by
  have hserved : Served s.params a l n p (transact a l n s) := by
    simp only [transact, hh, Bool.false_eq_true, ↓reduceIte, if_neg hne]
    exact engine_induct (P := Served s.params a l n p) (fun t ht _ hp => ht.issue ha hp) _ _
      (served_begin h hh hl hne)
  have hend : (transact a l n s).phase = .idle :=
    (transact_ends a n s hne hl).resolve_left (by simp [hserved.hung])
  obtain ⟨_, hh', hres, _, _, q, hq, hs⟩ := hserved
  simp only [ServedIn, hend] at hs
  obtain ⟨rfl, hrec⟩ := hs
  exact ⟨hh', hres, hrec, hq⟩

end Sys2Proof.Machine

/-! Register writes and reads of the one peripheral in the reference environment (20_memory.md R45 to R49). -/

namespace Sys2Proof.Machine

open Config

/-! ## Bytes stored at the advancing pointer (20_memory.md R45, R48) -/

section
variable {c : Params} {p : Peripheral}

/-- A pointer one further, and `j` more. -/
theorem pointer_succ (r : Byte) (j : Nat) : r + 1 + BitVec.ofNat 8 j = r + BitVec.ofNat 8 (j + 1) := by
  rw [BitVec.ofNat_add]; ac_rfl

theorem transmit_ptr (d : Byte) (h : p.sel = .wr) : (p.transmit c d).ptr = p.ptr + 1 := by
  rw [Peripheral.transmit_wr c d h]

theorem transmit_sel (d : Byte) (h : p.sel = .wr) : (p.transmit c d).sel = .wr :=
  Peripheral.transmit_selected (.inr h)

theorem read_transmitAll_outside {vs : List Byte} {x : Byte} (h : p.sel = .wr)
    (hx : ∀ j, j < vs.length → x ≠ p.ptr + BitVec.ofNat 8 j) :
    (p.transmitAll c vs).reg.read x.toNat = p.reg.read x.toNat := by
  induction vs generalizing p with
  | nil => rfl
  | cons v vs ih =>
    have hrest : ∀ j, j < vs.length → x ≠ (p.transmit c v).ptr + BitVec.ofNat 8 j := fun j hj => by
      rw [transmit_ptr v h, pointer_succ]
      exact hx (j + 1) (Nat.succ_lt_succ hj)
    have hfirst : p.ptr ≠ x := fun e => hx 0 (Nat.zero_lt_succ _) (by simp [e])
    rw [Peripheral.transmitAll_cons, ih (transmit_sel v h) hrest]
    exact Peripheral.read_act c .txd v fun _ ⟨_, e⟩ => hfirst e

theorem read_transmitAll {vs : List Byte} (h : p.sel = .wr) (hwf : p.reg.wf) (hl : vs.length ≤ 256) (j : Nat)
    (hj : j < vs.length) : (p.transmitAll c vs).reg.read (p.ptr + BitVec.ofNat 8 j).toNat = vs[j] := by
  induction vs generalizing p j with
  | nil => simp at hj
  | cons v vs ih =>
    simp only [List.length_cons] at hl hj
    rw [Peripheral.transmitAll_cons]
    cases j with
    | zero =>
      have hrest : ∀ j, j < vs.length → p.ptr ≠ (p.transmit c v).ptr + BitVec.ofNat 8 j := fun j hj => by
        rw [transmit_ptr v h]
        bv_omega
      have hptr : p.ptr + BitVec.ofNat 8 0 = p.ptr := by simp
      rw [hptr, read_transmitAll_outside (transmit_sel v h) hrest, Peripheral.transmit_wr c v h]
      exact Memory.read_write_same _ _ hwf
    | succ j =>
      have := ih (transmit_sel v h) (p.transmit_wf c v hwf) (by omega) j (by omega)
      rwa [transmit_ptr v h, pointer_succ] at this

theorem redirectedBy_nil (r : Byte) : ¬p.redirectedBy c r [] := by simp [Peripheral.redirectedBy]

theorem redirectedBy_cons (r v : Byte) (vs : List Byte) :
    p.redirectedBy c r (v :: vs) ↔
      (p.secondary = true ∧ p.paddr = c.addrSecondary ∧ r = c.redirectReg ∧ v = c.redirectVal) ∨
        p.redirectedBy c (r + 1) vs := by
  unfold Peripheral.redirectedBy
  rw [← Nat.or_exists_add_one]
  simp only [pointer_succ, BitVec.add_zero, List.getElem?_cons_zero, List.getElem?_cons_succ, Option.some.injEq]
  tauto

theorem transmitAll_redirectPending {vs : List Byte} (h : p.sel = .wr) :
    (p.transmitAll c vs).redirectPending = true ↔ p.redirectPending = true ∨ p.redirectedBy c p.ptr vs := by
  induction vs generalizing p with
  | nil => simp [redirectedBy_nil]
  | cons v vs ih =>
    rw [Peripheral.transmitAll_cons, ih (transmit_sel v h), transmit_ptr v h, redirectedBy_cons]
    rw [Peripheral.transmit_wr c v h]
    simp only [Bool.or_eq_true, Bool.and_eq_true, beq_iff_eq, Peripheral.redirectedBy]
    tauto

theorem transmit_paddr (d : Byte) : (p.transmit c d).paddr = p.paddr := by
  unfold Peripheral.transmit; split <;> rfl

theorem transmitAll_paddr (vs : List Byte) : (p.transmitAll c vs).paddr = p.paddr := by
  induction vs generalizing p with
  | nil => rfl
  | cons v vs ih => rw [Peripheral.transmitAll_cons, ih, transmit_paddr]

end

/-! ## The two operations -/

theorem State.Alone.of_eq {s : State} {e : Env0} {p : Peripheral} (h : s.env = { ref := some e, script := [] })
    (hp : e.peripherals = [p]) : s.Alone p := by
  obtain ⟨o, l⟩ := e
  obtain rfl : l = [p] := hp
  exact ⟨by rw [h], o, by rw [h]⟩

/-- Settles O45: the payload's bytes are stored at the advancing pointer, and the `STOP` moves a peripheral that has
noted a redirect. -/
theorem registerWriteReachesPeripheral : Obligations.RegisterWriteReachesPeripheral := by
  intro s e p a r vs hw hh he hp hwf ha
  have hl : vs.length + 1 ≤ 255 := (of_decide_eq_true hw).2
  have halone := State.Alone.of_eq he hp
  obtain ⟨_, hres, _, hq⟩ := transact_served (l := r :: vs) (n := 0) halone ha hh hl (by simp)
  rw [Peripheral.sent_cons] at hq
  have hsel : Peripheral.sel { p with ptr := r, sel := .wr } = .wr := rfl
  refine ⟨_, rfl, hres, fun j hj => ?_, fun x hx => ?_, _, hq.peripherals, rfl, fun hr => ?_, fun hn hr => ?_⟩
  · rw [regwr, hq.registerAt]
    exact congrArg some (read_transmitAll hsel hwf (by omega) j hj)
  · rw [regwr, hq.registerAt, halone.registerAt]
    exact congrArg some (read_transmitAll_outside hsel hx)
  · exact if_pos ((transmitAll_redirectPending hsel).mpr hr)
  · refine (if_neg fun hr' => ?_).trans (transmitAll_paddr vs)
    rcases (transmitAll_redirectPending hsel).mp hr' with h | h
    · simp [hn] at h
    · exact hr h

/-- A register read is one transaction in `combined` mode (42_register_protocol.md R132). -/
theorem regrd_combined {s : State} (a : BusAddr) (r n : Byte) (h : s.params.regReadMode = .combined) :
    regrd a r n s = transact a [r] n s := by
  simp [regrd, pointerHalf, readHalf, h]

/-- In `split` mode a second one follows a pointer write that was `OK` (42_register_protocol.md R132). -/
theorem regrd_split {s : State} (a : BusAddr) (r n : Byte) (h : s.params.regReadMode = .split)
    (hh : (transact a [r] 0 s).hung = false) (hr : (transact a [r] 0 s).result = .ok) :
    regrd a r n s =
      transact a [] n { transact a [r] 0 s with pstep := (transact a [r] 0 s).pstep.readHalf } := by
  have hp : pointerHalf a r n s = transact a [r] 0 s := by simp [pointerHalf, h]
  have hhalf : (transact a [r] 0 s).halfRead = true := by rw [State.halfRead, transact_params, h, hr]; rfl
  rw [regrd, hp, readHalf_eq a n hh, if_pos hhalf]

/-- Settles O46: the pointer byte is sent, and the bytes received are the registers from it on; in `split` mode the
`STOP` between the two transactions leaves the peripheral at its address. -/
theorem registerReadReturnsRegisters : Obligations.RegisterReadReturnsRegisters := by
  intro s e p a r n hw hh he hp ha hr
  have hn : n ≠ 0 := by simpa [Instr.wf] using hw
  have halone := State.Alone.of_eq he hp
  refine ⟨_, rfl, ?_⟩
  cases hm : s.params.regReadMode
  case combined =>
    obtain ⟨_, hres, hrec, hq⟩ := transact_served (l := [r]) (n := n) halone ha hh (by simp [maxLen]) (by simp)
    rw [regrd_combined a r n hm]
    exact ⟨hres, hrec, fun x => (hq.registerAt x).trans (halone.registerAt x).symm⟩
  case split =>
    obtain ⟨hh1, hres1, _, hq1⟩ := transact_served (l := [r]) (n := 0) halone ha hh (by simp [maxLen]) (by simp)
    have hpending : p.redirectPending = false := hr.resolve_right (by simp [hm])
    have hq1' : (transact a [r] 0 s).Alone { p with ptr := r, sel := .none } := by
      simpa [Peripheral.sent_cons, Peripheral.act, hpending] using hq1
    rw [regrd_split a r n hm hh1 hres1]
    obtain ⟨_, hres, hrec, hq⟩ := transact_served (l := []) (n := n)
      (s := { transact a [r] 0 s with pstep := (transact a [r] 0 s).pstep.readHalf }) (hq1'.of_env rfl) ha hh1
      (Nat.zero_le _) fun h => hn h.2
    exact ⟨hres, hrec, fun x => (hq.registerAt x).trans (halone.registerAt x).symm⟩

end Sys2Proof.Machine

/-! Host commands and their bytes: what presented bytes hold, and that the encoder and the decoder agree on it. -/

namespace Sys2Proof

open Machine

/-! ## What presented bytes hold (30_encoding.md R60 to R67) -/

/-- What the bytes presented at the host command interface hold, as the tables of 30_encoding.md list it: one
constructor for each kind of complete command (R61 to R63, R65), for the reserved first bytes (R67) and for each way
in which a command is not all there (R62). `decodeHost_eq_iff` ties it to the decoder. -/
inductive Presents : List Byte → HostDecode → Prop
  | tick (rest : List Byte) : Presents (0x80 :: rest) (.command .tick rest)
  | xact {b0 wlen rlen : Byte} {payload : List Byte} (rest : List Byte) (hb : b0.toNat < 0x80)
      (hp : payload.length = wlen.toNat) :
      Presents (b0 :: wlen :: rlen :: (payload ++ rest)) (.command (xactForm (b0.setWidth 7) payload wlen rlen) rest)
  | reserved {b0 : Byte} (rest : List Byte) (hb : 0x81 ≤ b0.toNat) : Presents (b0 :: rest) (.reserved b0 rest)
  | nothing : Presents [] .incomplete
  | noHeader {b0 : Byte} {tail : List Byte} (hb : b0.toNat < 0x80) (ht : tail.length < 2) :
      Presents (b0 :: tail) .incomplete
  | noPayload {b0 wlen rlen : Byte} {body : List Byte} (hb : b0.toNat < 0x80) (hl : body.length < wlen.toNat) :
      Presents (b0 :: wlen :: rlen :: body) .incomplete

/-- Bit 7 of the first byte tells the families apart (R60). -/
theorem msb_eq_false_iff {b : Byte} : b.msb = false ↔ b.toNat < 0x80 := by
  rw [BitVec.msb_eq_decide, decide_eq_false_iff_not, Nat.not_le]

theorem msb_eq_true_iff {b : Byte} : b.msb = true ↔ 0x80 ≤ b.toNat := by
  rw [BitVec.msb_eq_decide, decide_eq_true_iff]

/-- The decoder finds what the bytes hold. -/
theorem presents_decodeHost (bs : List Byte) : Presents bs (decodeHost bs) := by
  unfold decodeHost
  split
  · exact .nothing
  next b0 tail =>
    split_ifs with hm ht
    · exact ht ▸ .tick tail
    · refine .reserved tail ?_
      have hne : b0.toNat ≠ 0x80 := fun h => ht (BitVec.eq_of_toNat_eq h)
      exact Nat.lt_of_le_of_ne (msb_eq_true_iff.mp hm) hne.symm
    · have hb := msb_eq_false_iff.mp (by simpa using hm)
      split
      next wlen rlen body =>
        split_ifs with hl
        · exact .noPayload hb hl
        · have hx := Presents.xact (rlen := rlen) (body.drop wlen.toNat) hb
            (List.length_take_of_le (Nat.le_of_not_lt hl))
          rwa [List.take_append_drop] at hx
      next hne =>
        refine .noHeader hb ?_
        rcases tail with _ | ⟨_, _ | ⟨_, _⟩⟩
        · simp
        · simp
        · exact (hne _ _ _ rfl).elim

/-- Bytes hold one thing only. -/
theorem Presents.decodeHost_eq {bs : List Byte} {d : HostDecode} (h : Presents bs d) : decodeHost bs = d := by
  cases h with
  | tick rest => rfl
  | xact rest hb hp => simp [decodeHost, msb_eq_false_iff.mpr hb, ← hp]
  | @reserved b0 rest hb =>
    have hne : b0 ≠ 0x80 := fun h => absurd (h ▸ hb) (by decide)
    simp only [decodeHost, if_pos (msb_eq_true_iff.mpr (Nat.le_of_lt hb)), if_neg hne]
  | nothing => rfl
  | @noHeader _ tail hb ht =>
    simp only [decodeHost, msb_eq_false_iff.mpr hb]
    rcases tail with _ | ⟨_, _ | ⟨_, _⟩⟩
    · rfl
    · rfl
    · simp at ht
  | noPayload hb hl => simp [decodeHost, msb_eq_false_iff.mpr hb, hl]

theorem decodeHost_eq_iff {bs : List Byte} {d : HostDecode} : decodeHost bs = d ↔ Presents bs d :=
  ⟨fun h => h ▸ presents_decodeHost bs, Presents.decodeHost_eq⟩

/-! ## The four `XACT` forms (30_encoding.md R61, R63) -/

/-- The form by the lengths one after the other: the table of R63. -/
theorem xactForm_eq (a : BusAddr) (payload : List Byte) (wlen rlen : Byte) :
    xactForm a payload wlen rlen =
      if wlen = 0 then if rlen = 0 then .xactInv a else .xactR a rlen
      else if rlen = 0 then .xactW a payload else .xactWr a payload rlen := by
  unfold xactForm
  by_cases hw : wlen = 0 <;> by_cases hr : rlen = 0 <;> simp only [hw, hr, and_self, and_false, false_and, ↓reduceIte]

section
variable {payload : List Byte} {wlen : Byte} (hp : payload.length = wlen.toNat)
include hp

theorem payload_eq_nil (hw : wlen = 0) : payload = [] := by
  simpa [hw] using hp

theorem payload_length_bounds (hw : wlen ≠ 0) : 1 ≤ payload.length ∧ payload.length ≤ maxLen := by
  have hpos : wlen.toNat ≠ 0 := fun h => hw (BitVec.eq_of_toNat_eq h)
  have hlt := wlen.isLt
  rw [hp, maxLen]
  omega

theorem ofNat_payload_length : BitVec.ofNat 8 payload.length = wlen := by
  rw [hp, BitVec.ofNat_toNat, BitVec.setWidth_eq]

/-- Whatever a header counts is a well-formed command (R61: `WLEN` and `RLEN` are bytes). -/
theorem wf_xactForm (a : BusAddr) (rlen : Byte) : (xactForm a payload wlen rlen).wf = true := by
  rw [xactForm_eq]
  split_ifs with hw hr hr
  · rfl
  · exact bne_iff_ne.mpr hr
  · exact decide_eq_true (payload_length_bounds hp hw)
  · exact Bool.and_eq_true_iff.mpr ⟨decide_eq_true (payload_length_bounds hp hw), bne_iff_ne.mpr hr⟩

/-- The bytes of a form are the header it was selected by, and its payload (R61, R62). -/
theorem encode_xactForm (a : BusAddr) (rlen : Byte) :
    encode (xactForm a payload wlen rlen) = .host (xactHeader a wlen rlen ++ payload) := by
  rw [xactForm_eq]
  split_ifs with hw hr hr
  · rw [encode, payload_eq_nil hp hw, hw, hr, List.append_nil]
  · rw [encode, payload_eq_nil hp hw, hw, List.append_nil]
  · rw [encode, ofNat_payload_length hp, hr]
  · rw [encode, ofNat_payload_length hp]

/-- The header of an address and its payload hold the form the lengths select. -/
theorem presents_header (a : BusAddr) (rlen : Byte) (rest : List Byte) :
    Presents (xactHeader a wlen rlen ++ payload ++ rest) (.command (xactForm a payload wlen rlen) rest) := by
  have hb : (a.setWidth 8 : Byte).toNat < 0x80 := msb_eq_false_iff.mp (Laws.EncodedShape.header_msb a)
  have ha : (a.setWidth 8 : Byte).setWidth 7 = a := by simp
  have h := Presents.xact (rlen := rlen) rest hb hp
  rw [ha] at h
  simpa [xactHeader] using h

end

theorem ofNat_length_ne_zero {p : List Byte} (h : 1 ≤ p.length ∧ p.length ≤ maxLen) :
    BitVec.ofNat 8 p.length ≠ 0 :=
  payloadLength_ne_zero (List.length_pos_iff.mp h.1) h.2

/-- A well-formed `XACT` command is the form its own lengths select (R63). -/
theorem xactForm_operands {i : Instr} {a : BusAddr} {p : List Byte} {n : Byte} (h : xactOperands i = some (a, p, n))
    (hi : i.wf = true) : xactForm a p (BitVec.ofNat 8 p.length) n = i := by
  rw [xactForm_eq]
  cases i <;> simp only [xactOperands, Option.some.injEq, Prod.mk.injEq, reduceCtorEq] at h <;>
    obtain ⟨rfl, rfl, rfl⟩ := h
  case xactInv => rfl
  case xactW => rw [if_neg (ofNat_length_ne_zero (of_decide_eq_true hi)), if_pos rfl]
  case xactR => exact if_neg (bne_iff_ne.mp hi : ¬_)
  case xactWr =>
    obtain ⟨hl, hn⟩ := Bool.and_eq_true_iff.mp hi
    rw [if_neg (ofNat_length_ne_zero (of_decide_eq_true hl)), if_neg (bne_iff_ne.mp hn)]

theorem encode_host_cases {i : Instr} {bytes : List Byte} (h : encode i = .host bytes) :
    i = .tick ∧ bytes = [0x80] ∨ ∃ x, xactOperands i = some x := by
  cases i <;> simp only [encode, reduceCtorEq] at h
  case tick => exact .inl ⟨rfl, (Encoded.host.inj h).symm⟩
  all_goals exact .inr ⟨_, rfl⟩

/-- Settles O5: the command is a `TICK` or the form its lengths select, and its bytes hold it. -/
theorem hostCommandsDecodeBack : Obligations.HostCommandsDecodeBack := by
  intro i bytes rest hi h
  rcases encode_host_cases h with ⟨rfl, rfl⟩ | ⟨⟨a, p, n⟩, hx⟩
  · exact (Presents.tick rest).decodeHost_eq
  · have hp := Laws.EncodedShape.length_toNat (xactOperands_length hx hi)
    have hf := xactForm_operands hx hi
    rw [← hf, encode_xactForm hp] at h
    cases h
    rw [(presents_header hp a n rest).decodeHost_eq, hf]

/-- Settles O6: only a `TICK` and the forms are held by bytes as commands. -/
theorem decodedCommandsEncodeBack : Obligations.DecodedCommandsEncodeBack := by
  intro bs rest i h
  cases decodeHost_eq_iff.mp h with
  | tick => exact ⟨rfl, _, rfl, rfl⟩
  | @xact b0 wlen rlen payload _ hb hp =>
    have ha : (b0.setWidth 7).setWidth 8 = b0 :=
      BitVec.setWidth_setWidth_eq_self (BitVec.lt_def.mpr hb)
    refine ⟨wf_xactForm hp _ rlen, _, encode_xactForm hp _ rlen, ?_⟩
    simp [xactHeader, ha]

/-- Settles O7: the header and the payload it counts hold the form, with the address in the low 7 bits. -/
theorem xactFormFollowsLengths : Obligations.XactFormFollowsLengths := by
  intro b0 wlen rlen payload rest hb hp
  have h := Presents.xact (rlen := rlen) rest (msb_eq_false_iff.mp hb) hp
  rw [h.decodeHost_eq, xactForm_eq, BitVec.setWidth_eq_extractLsb' (by decide)]

/-- Settles O8: the constructors of `Presents` with a reserved byte, and those with an incomplete command. -/
theorem bytesThatAreNoCommand : Obligations.BytesThatAreNoCommand := by
  refine ⟨fun bs rest b => ?_, fun bs => ?_⟩ <;> rw [decodeHost_eq_iff]
  · constructor
    · rintro ⟨⟩
      exact ⟨rfl, ‹_›⟩
    · rintro ⟨rfl, hb⟩
      exact .reserved rest hb
  · constructor
    · intro h
      cases h with
      | nothing => exact .inl rfl
      | noHeader hb ht => exact .inr ⟨_, _, rfl, hb, .inl ht⟩
      | noPayload hb hl =>
        refine .inr ⟨_, _, rfl, hb, .inr ?_⟩
        simp only [List.length_cons, List.getD_cons_succ, List.getD_cons_zero]
        omega
    · rintro (rfl | ⟨b0, tail, rfl, hb, h⟩)
      · exact .nothing
      · rcases tail with _ | ⟨wlen, _ | ⟨rlen, body⟩⟩
        · exact .noHeader hb (by simp)
        · exact .noHeader hb (by simp)
        · refine .noPayload hb ?_
          simp only [List.length_cons, List.getD_cons_succ, List.getD_cons_zero] at h
          omega

end Sys2Proof

/-! Step words and bus steps: what a word asks for, and that the encoder and the decoder agree on it. -/

namespace Sys2Proof

open Machine

/-! ## What step words ask for (30_encoding.md R69 to R74) -/

/-- The steps whose data "must be 0" (R69), with the name of `op = 0` by its context. -/
def zeroDataSteps (afterWrite : Bool) : List (BitVec 3 × Instr) :=
  [(0, if afterWrite then .rstart else .start), (3, .rxa), (4, .rxn), (5, .stop), (6, .rearm)]

/-- What a step word with this `op` and `data` asks for, as the table of 30_encoding.md R69 lists it, with the
address bytes of R71. `decodeStepWord_eq_iff` ties it to the decoder. -/
inductive Asks (afterWrite : Bool) : BitVec 3 → Byte → StepWordDecode → Prop
  | zeroData {op : BitVec 3} {i : Instr} (h : (op, i) ∈ zeroDataSteps afterWrite) : Asks afterWrite op 0 (.step i)
  | nonzeroData {op : BitVec 3} {i : Instr} {d : Byte} (h : (op, i) ∈ zeroDataSteps afterWrite) (hd : d ≠ 0) :
      Asks afterWrite op d .nonzeroData
  | slaw (a : BusAddr) : Asks afterWrite 1 (addrWrite a) (.step (.slaw a))
  | slar (a : BusAddr) : Asks afterWrite 1 (addrRead a) (.step (.slar a))
  | txd (d : Byte) : Asks afterWrite 2 d (.step (.txd d))
  | reservedOp (d : Byte) : Asks afterWrite 7 d .reservedOp

theorem data_stepWordOf (op : BitVec 3) (d : Byte) : StepWord.data (stepWordOf op d) = d :=
  BitVec.extractLsb'_append_eq_right

theorem stepWordOf_op_data (w : StepWord) : stepWordOf (StepWord.op w) (StepWord.data w) = w :=
  BitVec.extractLsb'_append_extractLsb'

@[simp] theorem addrWrite_direction (a : BusAddr) : (addrWrite a)[0] = false := BitVec.getLsbD_append

@[simp] theorem addrRead_direction (a : BusAddr) : (addrRead a)[0] = true := BitVec.getLsbD_append

/-- A byte is the address byte of its upper 7 bits, for writing or for reading by bit 0 (R71). -/
theorem addressByte_cases (d : Byte) : ∃ a, d = addrWrite a ∨ d = addrRead a := by
  have hd : d.extractLsb' 1 7 ++ d.extractLsb' 0 1 = d := BitVec.extractLsb'_append_extractLsb'
  refine ⟨d.extractLsb' 1 7, ?_⟩
  rcases BitVec.eq_zero_or_eq_one (d.extractLsb' 0 1) with h | h <;> rw [h] at hd
  · exact .inl hd.symm
  · exact .inr hd.symm

theorem mem_zeroDataSteps {b : Bool} {op : BitVec 3} {i : Instr} : (op, i) ∈ zeroDataSteps b ↔
    op = 0 ∧ i = (if b then .rstart else .start) ∨ op = 3 ∧ i = .rxa ∨ op = 4 ∧ i = .rxn ∨ op = 5 ∧ i = .stop ∨
      op = 6 ∧ i = .rearm := by
  simp only [zeroDataSteps, List.mem_cons, Prod.mk.injEq, List.not_mem_nil, or_false]

theorem zeroDataOps (b : Bool) : (zeroDataSteps b).map Prod.fst = [0#3, 3#3, 4#3, 5#3, 6#3] := rfl

theorem exists_zeroDataStep {b : Bool} {op : BitVec 3} :
    (∃ i, (op, i) ∈ zeroDataSteps b) ↔ op ∈ [0#3, 3#3, 4#3, 5#3, 6#3] := by
  rw [← zeroDataOps b, List.mem_map]
  simp

/-- Every `op` and `data` ask for something. -/
theorem exists_asks (b : Bool) (op : BitVec 3) (d : Byte) : ∃ r, Asks b op d r := by
  have hop : op ∈ [0#3, 3#3, 4#3, 5#3, 6#3] ∨ op = 1 ∨ op = 2 ∨ op = 7 := by revert op; decide
  rcases hop with h | rfl | rfl | rfl
  · obtain ⟨i, hi⟩ := (exists_zeroDataStep (b := b)).mpr h
    by_cases hd : d = 0
    · exact hd ▸ ⟨_, .zeroData hi⟩
    · exact ⟨_, .nonzeroData hi hd⟩
  · obtain ⟨a, rfl | rfl⟩ := addressByte_cases d
    · exact ⟨_, .slaw a⟩
    · exact ⟨_, .slar a⟩
  · exact ⟨_, .txd d⟩
  · exact ⟨_, .reservedOp d⟩

/-- The step word is decoded by its `op` and its `data`. -/
theorem Asks.decodeStepWord_eq {b : Bool} {op : BitVec 3} {d : Byte} {r : StepWordDecode} (h : Asks b op d r) :
    decodeStepWord b (stepWordOf op d) = r := by
  simp only [decodeStepWord, data_stepWordOf, Laws.EncodedShape.op_stepWordOf]
  cases h with
  | zeroData h =>
    rcases mem_zeroDataSteps.mp h with ⟨rfl, rfl⟩ | ⟨rfl, rfl⟩ | ⟨rfl, rfl⟩ | ⟨rfl, rfl⟩ | ⟨rfl, rfl⟩ <;> rfl
  | nonzeroData h hd =>
    rcases mem_zeroDataSteps.mp h with ⟨rfl, _⟩ | ⟨rfl, _⟩ | ⟨rfl, _⟩ | ⟨rfl, _⟩ | ⟨rfl, _⟩ <;> exact if_neg hd
  | slaw a => simp
  | slar a => simp
  | txd d => rfl
  | reservedOp d => rfl

theorem decodeStepWord_eq_iff {b : Bool} {w : StepWord} {r : StepWordDecode} :
    decodeStepWord b w = r ↔ Asks b (StepWord.op w) (StepWord.data w) r := by
  obtain ⟨r', h⟩ := exists_asks b (StepWord.op w) (StepWord.data w)
  have he := h.decodeStepWord_eq
  rw [stepWordOf_op_data] at he
  refine ⟨fun e => ?_, fun h' => ?_⟩
  · rwa [← e, he]
  · rw [← h'.decodeStepWord_eq, stepWordOf_op_data]

/-- What is asked for has the step word it was read from (R69, R71). -/
theorem Asks.encode_eq {b : Bool} {op : BitVec 3} {d : Byte} {i : Instr} (h : Asks b op d (.step i)) :
    encode i = .step (stepWordOf op d) := by
  cases h with
  | zeroData h =>
    rcases mem_zeroDataSteps.mp h with ⟨rfl, rfl⟩ | ⟨rfl, rfl⟩ | ⟨rfl, rfl⟩ | ⟨rfl, rfl⟩ | ⟨rfl, rfl⟩
    · cases b <;> rfl
    all_goals rfl
  | slaw a => rfl
  | slar a => rfl
  | txd d => rfl

theorem asks_of_encode {i : Instr} {w : StepWord} (h : encode i = .step w) :
    ∃ op d, w = stepWordOf op d ∧ Asks (i == .rstart) op d (.step i) := by
  cases i <;> simp only [encode, reduceCtorEq, Encoded.step.injEq] at h <;> subst h
  case slaw a => exact ⟨_, _, rfl, .slaw a⟩
  case slar a => exact ⟨_, _, rfl, .slar a⟩
  case txd d => exact ⟨_, _, rfl, .txd d⟩
  all_goals exact ⟨_, _, rfl, .zeroData (mem_zeroDataSteps.mpr (by decide))⟩

theorem asks_reservedOp_iff {b : Bool} {op : BitVec 3} {d : Byte} : Asks b op d .reservedOp ↔ op = 7 := by
  constructor
  · rintro ⟨⟩
    rfl
  · rintro rfl
    exact .reservedOp d

theorem asks_nonzeroData_iff {b : Bool} {op : BitVec 3} {d : Byte} :
    Asks b op d .nonzeroData ↔ op ∈ [0#3, 3#3, 4#3, 5#3, 6#3] ∧ d ≠ 0 := by
  rw [← exists_zeroDataStep (b := b)]
  constructor
  · rintro ⟨⟩
    exact ⟨⟨_, ‹_›⟩, ‹_›⟩
  · rintro ⟨⟨i, hi⟩, hd⟩
    exact .nonzeroData hi hd

/-- Settles O9: a bus step's word asks for it, and the other constructors of `Asks` are those of the reserved `op` and
of the non-zero data. -/
theorem stepWordsRoundTrip : Obligations.StepWordsRoundTrip := by
  refine ⟨fun i w h => ?_, fun b w => ⟨fun i h => ?_, ?_, ?_⟩⟩
  · obtain ⟨op, d, rfl, ha⟩ := asks_of_encode h
    exact ha.decodeStepWord_eq
  · rw [(decodeStepWord_eq_iff.mp h).encode_eq, stepWordOf_op_data]
  · exact decodeStepWord_eq_iff.trans asks_reservedOp_iff
  · exact decodeStepWord_eq_iff.trans asks_nonzeroData_iff

/-- Settles O10: each of the words is decoded by evaluation. -/
theorem writtenWordsDecode : Obligations.WrittenWordsDecode :=
  ⟨rfl, rfl, rfl, rfl, rfl, rfl, rfl, rfl, rfl, rfl, rfl, rfl, rfl, rfl, rfl⟩

end Sys2Proof

/-! What an idle block does with bytes that are no command, and a waiting step whose scripted answer passes. -/

namespace Sys2Proof.Machine

/-- Settles O13: the byte is found to be reserved, and `State.rejectReserved` is what R67 says. -/
theorem reservedByteIsRejected : Obligations.ReservedByteIsRejected := by
  intro s b rest hs hi hb
  have hd : decodeHost s.inbox = .reserved b rest := hi ▸ (Presents.reserved rest hb).decodeHost_eq
  exact step_reserved hs hd

/-- Settles O14: nothing is fetched. -/
theorem incompleteCommandChangesNothing : Obligations.IncompleteCommandChangesNothing := fun _ hs h =>
  step_incomplete hs h

section
variable {s : State} {n : Nat} {st rx : Byte}

/-- What a waiting step with a scripted answer within `WAIT_LIMIT` leaves, before its classification
(40_bus_steps.md R90). -/
theorem busWait_scripted (k : StepKind) (d : Byte) (hh : s.hung = false) (h : s.NextAnswer n st rx)
    (ha : allows s.params.waitLimit n = true) :
    s.busWait k d =
      { s with
        waitcnt := n
        env := (s.busWait k d).env
        free := (s.busWait k d).free
        trace := s.trace ++ [{ word := k.word d, reply := .ready n st rx }] } := by
  simp [State.busWait, State.emit, State.replyTo_scripted k d h ha, waitcntAfter, hh]

/-- A waiting step whose scripted answer passes has its effect of `PASS` (40_bus_steps.md R90, R100). -/
theorem waitingStep_scripted_passes {k : StepKind} (d : Byte) (f : Byte → State → State) (hh : s.hung = false)
    (h : s.NextAnswer n st rx) (ha : allows s.params.waitLimit n = true) (hc : classifyStatus k st = none) :
    s.waitingStep k d f = f rx (s.busWait k d) := by
  simp [State.waitingStep, hh, State.replyTo_scripted k d h ha, hc]

end

/-- Settles O18: the status passes, and the effect of `PASS` is on `idx` and `phase`. -/
theorem addressStepsPass : Obligations.AddressStepsPass := by
  refine fun s a n rx hh ha => ⟨fun h => ?_, fun h => ?_⟩
  · refine ⟨_, congrArg Host.Outcome.next (waitingStep_scripted_passes _ _ hh h ha (by decide)),
      (State.draw_scripted _ _ h).2, ?_⟩
    rw [busWait_scripted .slaw (addrWrite a) hh h ha]
    rfl
  · refine ⟨_, congrArg Host.Outcome.next (waitingStep_scripted_passes _ _ hh h ha (by decide)),
      (State.draw_scripted _ _ h).2, ?_⟩
    rw [busWait_scripted .slar (addrRead a) hh h ha]
    rfl

end Sys2Proof.Machine

/-! The response of a `TICK` (30_encoding.md R66): one, of the values at the end of the tick. -/

namespace Sys2Proof.Machine

/-! ## The responses while the sequencer runs -/

@[simp] theorem regwr_responses (a : BusAddr) (r : Byte) (vs : List Byte) (s : State) :
    (regwr a r vs s).responses = s.responses := transact_responses ..

@[simp] theorem readHalf_responses (a : BusAddr) (n : Byte) (s : State) :
    (readHalf a n s).responses = s.responses := by
  unfold readHalf; split <;> [rfl; split <;> simp]

@[simp] theorem regrd_responses (a : BusAddr) (r n : Byte) (s : State) :
    (regrd a r n s).responses = s.responses := by
  rw [regrd, readHalf_responses, pointerHalf]
  split <;> simp

@[simp] theorem afterIdent_responses (s : State) : (afterIdent s).2.responses = s.responses := by
  unfold afterIdent; split <;> [rfl; split <;> rfl]

@[simp] theorem afterHs2_responses (s : State) : (afterHs2 s).2.responses = s.responses := by
  unfold afterHs2; split <;> [rfl; split <;> [rfl; simp]]

@[simp] theorem afterHs1_responses (s : State) : (afterHs1 s).2.responses = s.responses := by
  unfold afterHs1; split <;> [rfl; split <;> [rfl; simp]]

@[simp] theorem afterRedirect_responses (s : State) : (afterRedirect s).2.responses = s.responses := by
  unfold afterRedirect; split <;> [rfl; split <;> [rfl; simp]]

@[simp] theorem init_responses (s : State) : (init s).2.responses = s.responses := by simp [init]

@[simp] theorem pollEnd_responses (s : State) : (pollEnd s).responses = s.responses := by
  unfold pollEnd; split <;> [rfl; split <;> simp]

@[simp] theorem poll_responses (s : State) : (poll s).responses = s.responses := by simp [poll]

/-! ## The end of a `TICK` -/

/-- `t` is the end of a `TICK` of `s`: the block hangs, or it has added the response of `t`'s own values. -/
def TickEnds (s t : State) : Prop := t.hung = true ∨ t.responses = s.responses ++ [t.tickResponse]

theorem tickEnds_respondTick {s u : State} (h : u.responses = s.responses) : TickEnds s (respondTick u) := by
  unfold respondTick
  split
  · exact .inl ‹_›
  · exact .inr (congrArg (· ++ [u.tickResponse]) h)

theorem tickEnds_finishInit {s : State} {r : Bool × State} (h : r.2.responses = s.responses) :
    TickEnds s (finishInit r) := by
  unfold finishInit failTick
  split_ifs with hh
  · exact .inl hh
  · exact tickEnds_respondTick (by simpa using h)
  · exact tickEnds_respondTick h
  · exact tickEnds_respondTick h

theorem tickEnds_tickBody (s : State) : TickEnds s (tickBody s) := by
  unfold tickBody
  split
  · split
    · exact tickEnds_respondTick rfl
    · exact tickEnds_finishInit (init_responses s)
  · exact tickEnds_respondTick (poll_responses s)

/-! ## Byte 0 -/

theorem append_ofBool_getLsbD_zero {w : Nat} (x : BitVec w) (b : Bool) : (x ++ BitVec.ofBool b).getLsbD 0 = b := by
  rw [BitVec.getLsbD_append]
  simp

section
variable (s : State)

theorem tickByte0_pstate : s.tickByte0.extractLsb' 0 1 = s.pstate.code := BitVec.extractLsb'_append_eq_right

theorem tickByte0_pclass : s.tickByte0.extractLsb' 1 3 = s.pclass.code :=
  (BitVec.extractLsb'_append_eq_of_le (by decide)).trans BitVec.extractLsb'_append_eq_right

theorem tickByte0_sampleValid : s.tickByte0.getLsbD 4 = s.sampleValid := calc
  s.tickByte0.getLsbD 4 = (0#2 ++ BitVec.ofBool s.calibReset ++ BitVec.ofBool s.sampleValid).getLsbD 0 :=
    BitVec.getLsbD_append.trans BitVec.getLsbD_append
  _ = s.sampleValid := append_ofBool_getLsbD_zero ..

theorem tickByte0_calibReset : s.tickByte0.getLsbD 5 = s.calibReset := calc
  s.tickByte0.getLsbD 5 = (0#2 ++ BitVec.ofBool s.calibReset).getLsbD 0 :=
    BitVec.getLsbD_append.trans (BitVec.getLsbD_append.trans BitVec.getLsbD_append)
  _ = s.calibReset := append_ofBool_getLsbD_zero ..

theorem tickByte0_unused : s.tickByte0.extractLsb' 6 2 = 0 := calc
  s.tickByte0.extractLsb' 6 2 = (0#2 ++ BitVec.ofBool s.calibReset ++ BitVec.ofBool s.sampleValid).extractLsb' 2 2 :=
    (BitVec.extractLsb'_append_eq_of_le (by decide)).trans (BitVec.extractLsb'_append_eq_of_le (by decide))
  _ = (0#2 ++ BitVec.ofBool s.calibReset).extractLsb' 1 2 := BitVec.extractLsb'_append_eq_of_le (by decide)
  _ = 0 := BitVec.extractLsb'_append_eq_left

end

/-- Settles O59: every end of a `TICK` responds with its own values, and byte 0 is put together from its fields. -/
theorem tickResponseLayout : Obligations.TickResponseLayout := by
  refine ⟨fun s t hs h hh => ?_, ⟨rfl, rfl⟩, rfl, rfl, rfl, rfl, rfl⟩
  rw [exec_tick_idle hs] at h
  cases h
  have hr := (tickEnds_tickBody s.beginTick).resolve_left (by simp [hh])
  exact ⟨_, hr, tickByte0_pstate _, tickByte0_pclass _, tickByte0_sampleValid _, tickByte0_calibReset _,
    tickByte0_unused _⟩

end Sys2Proof.Machine

/-! The nine bus steps as instructions: the classification of a status, and what a step leaves unchanged. -/

namespace Sys2Proof.Machine

open Config

/-! ## The classification of a status (40_bus_steps.md R100) -/

theorem getD_timeout_ite (p : Prop) [Decidable p] (c : Result) :
    (if p then some c else none).getD .timeout = if p then c else .timeout := by
  split <;> rfl

/-- What a status that does not pass is classified as. -/
def failureOf (k : StepKind) (st : Byte) : Result :=
  if st = stArbLost then .arbitrationLost else (nackOf k st).getD .timeout

theorem classifyStatus_eq (k : StepKind) (st : Byte) :
    classifyStatus k st = if passes k st then none else some (failureOf k st) := by
  simp only [classifyStatus, failureOf, apply_ite some]

/-- The failures of a kind with a `NACK` column. -/
theorem failureOf_of_nackOf_ite {k : StepKind} {st nack : Byte} {c : Result}
    (h : nackOf k st = if st = nack then some c else none) :
    failureOf k st = if st = stArbLost then .arbitrationLost else if st = nack then c else .timeout := by
  rw [failureOf, h, getD_timeout_ite]

section
variable {k : StepKind} {st : Byte} {p : Prop} [Decidable p] (hp : passes k st = true ↔ p)
include hp

/-- A kind without a `NACK` column. -/
theorem classifyStatus_of_nackOf_none (h : nackOf k st = none) :
    classifyStatus k st = if p then none else if st = stArbLost then some .arbitrationLost else some .timeout := by
  rw [classifyStatus_eq, failureOf, h, Option.getD_none, apply_ite some]
  exact if_congr hp rfl rfl

/-- A kind with a `NACK` column: which of its two failing statuses is tested first makes no difference. -/
theorem classifyStatus_of_nackOf_ite {nack : Byte} {c : Result}
    (h : nackOf k st = if st = nack then some c else none) (hne : nack ≠ stArbLost) :
    classifyStatus k st =
      if p then none else if st = nack then some c
        else if st = stArbLost then some .arbitrationLost else some .timeout := by
  have hnack : st = stArbLost → st ≠ nack := fun e => e ▸ hne.symm
  rw [classifyStatus_eq, failureOf_of_nackOf_ite h, apply_ite some, apply_ite some, ite_ite_comm (h := hnack)]
  exact if_congr hp rfl rfl

end

/-- Settles O25: kind by kind, the columns of the pass statuses and of the `NACK`. -/
theorem classificationTable : Obligations.ClassificationTable := by
  intro n st rx
  have hstart : passes .start st = true ↔ st = 0x08 ∨ st = 0x10 := by
    rw [passes, Bool.or_eq_true, beq_iff_eq, beq_iff_eq]
    rfl
  exact ⟨classifyStatus_of_nackOf_none hstart rfl,
    classifyStatus_of_nackOf_ite beq_iff_eq rfl (by decide),
    classifyStatus_of_nackOf_ite beq_iff_eq rfl (by decide),
    classifyStatus_of_nackOf_ite beq_iff_eq rfl (by decide),
    classifyStatus_of_nackOf_none beq_iff_eq rfl,
    classifyStatus_of_nackOf_none beq_iff_eq rfl,
    fun _ => rfl⟩

/-! ## What a bus step leaves unchanged (40_bus_steps.md R102) -/

/-- What the bus step `i` leaves of `s`: all but its token, `RESULT`, `phase`, `idx`, `waitcnt` and the hang, and what
`RXA` and `RXN` receive. -/
structure StepFrame (i : Instr) (s t : State) : Prop where
  pis : t.pis = s.pis
  interface : t.interface = s.interface
  busy : t.busy = s.busy
  general : i ≠ .rxa → i ≠ .rxn → t.general = s.general
  operands : (t.addr, t.wlen, t.rlen, t.wbuf) = (s.addr, s.wlen, s.rlen, s.wbuf)
  rbuf : ∀ j : Fin 255, j.val ≠ s.idx.toNat → t.rbuf[j] = s.rbuf[j]

theorem StepFrame.of_general {i : Instr} {s t : State} (hp : t.pis = s.pis) (hi : t.interface = s.interface)
    (hb : t.busy = s.busy) (hg : t.general = s.general) : StepFrame i s t where
  pis := hp
  interface := hi
  busy := hb
  general := fun _ _ => hg
  operands := congrArg (fun g => (g.1, g.2.1, g.2.2.1, g.2.2.2.1)) hg
  rbuf := fun j _ => congrArg (fun g => g.2.2.2.2.1[j]) hg

theorem StepFrame.trans {i : Instr} {s t u : State} (h : StepFrame i s t) (h' : StepFrame i t u)
    (hidx : t.idx = s.idx) : StepFrame i s u where
  pis := h'.pis.trans h.pis
  interface := h'.interface.trans h.interface
  busy := h'.busy.trans h.busy
  general := fun ha hn => (h'.general ha hn).trans (h.general ha hn)
  operands := h'.operands.trans h.operands
  rbuf := fun j hj => (h'.rbuf j (hidx ▸ hj)).trans (h.rbuf j hj)

theorem StepFrame.busWait (i : Instr) (s : State) (k : StepKind) (d : Byte) : StepFrame i s (s.busWait k d) :=
  .of_general (by simp) (by simp [State.interface]) (by simp) (by simp [State.general])

theorem StepFrame.raise (i : Instr) (s : State) (c : Result) : StepFrame i s (s.raise c) :=
  .of_general (by simp) (by simp [State.interface]) (by simp) (by simp [State.general])

theorem StepFrame.busRelease (i : Instr) (s : State) (k : StepKind) (p : Phase) :
    StepFrame i s { s.busRelease k with phase := p } :=
  .of_general (by simp [State.pis]) (by simp [State.interface]) (by simp) (by simp [State.general])

theorem StepFrame.storeReceived {i : Instr} (hi : i = .rxa ∨ i = .rxn) (t : State) (rx : Byte) (p : Phase) :
    StepFrame i t { t.storeReceived rx with phase := p } where
  pis := rfl
  interface := rfl
  busy := rfl
  general := fun ha hn => (hi.elim ha hn).elim
  operands := rfl
  rbuf := fun j hj => Vector.getElem_setIfInBounds_ne j.isLt hj.symm

/-- What the effect of `PASS` of the bus step `i` leaves of `t`, its token and `RESULT` included. -/
structure PassFrame (i : Instr) (t u : State) : Prop extends StepFrame i t u where
  trace : u.trace = t.trace
  result : u.result = t.result

theorem PassFrame.setIdxPhase (i : Instr) (t : State) (j : Byte) (p : Phase) :
    PassFrame i t { t with idx := j, phase := p } :=
  ⟨.of_general rfl rfl rfl rfl, rfl, rfl⟩

theorem PassFrame.storeReceived {i : Instr} (hi : i = .rxa ∨ i = .rxn) (t : State) (rx : Byte) (p : Phase) :
    PassFrame i t { t.storeReceived rx with phase := p } :=
  ⟨.storeReceived hi t rx p, rfl, rfl⟩

/-! ## The seven waiting instructions (40_bus_steps.md R92 to R97, R101) -/

/-- The instruction `i` is the waiting step of kind `k` with byte `d` and `f` as its effect of `PASS`. -/
structure IsWaitingStep (i : Instr) (k : StepKind) (d : Byte) (f : Byte → State → State) : Prop where
  exec_eq : ∀ s, exec i s = .next (s.waitingStep k d f)
  passes_eq : ∀ st, passes k st = passesWith i st
  failureOf_eq : ∀ st, failureOf k st = failsWith i st
  passFrame : ∀ rx t, PassFrame i t (f rx t)

theorem exists_isWaitingStep {i : Instr} {w : StepWord} (h : waitingWord i = some w) :
    ∃ k d f, k.word d = w ∧ IsWaitingStep i k d f := by
  cases i <;> simp only [waitingWord, Option.some.injEq, reduceCtorEq] at h <;> subst h
  case start =>
    exact ⟨.start, 0, _, rfl, fun _ => rfl, fun _ => rfl, fun _ => rfl,
      fun _ t => by split <;> exact .setIdxPhase _ t t.idx _⟩
  case rstart =>
    exact ⟨.start, 0, _, rfl, fun _ => rfl, fun _ => rfl, fun _ => rfl, fun _ t => .setIdxPhase _ t t.idx _⟩
  case slaw a =>
    exact ⟨.slaw, addrWrite a, _, rfl, fun _ => rfl, fun _ => rfl,
      fun _ => failureOf_of_nackOf_ite rfl, fun _ t => .setIdxPhase _ t _ _⟩
  case slar a =>
    exact ⟨.slar, addrRead a, _, rfl, fun _ => rfl, fun _ => rfl,
      fun _ => failureOf_of_nackOf_ite rfl, fun _ t => .setIdxPhase _ t _ _⟩
  case txd d =>
    exact ⟨.txd, d, _, rfl, fun _ => rfl, fun _ => rfl,
      fun _ => failureOf_of_nackOf_ite rfl, fun _ t => .setIdxPhase _ t _ _⟩
  case rxa =>
    exact ⟨.rxa, 0, _, rfl, fun _ => rfl, fun _ => rfl, fun _ => rfl,
      fun rx t => .storeReceived (.inl rfl) t rx _⟩
  case rxn =>
    exact ⟨.rxn, 0, _, rfl, fun _ => rfl, fun _ => rfl, fun _ => rfl,
      fun rx t => .storeReceived (.inr rfl) t rx _⟩

/-- The other two bus steps are the releases (40_bus_steps.md R98, R99). -/
theorem busWord_cases {i : Instr} {w : StepWord} (h : busWord i = some w) :
    waitingWord i = some w ∨ ∃ k : StepKind, k.word 0 = w ∧ ∀ s, exec i s = .next (s.releaseStep k) := by
  cases i <;> simp only [busWord] at h
  case stop => exact .inr ⟨.stop, Option.some.inj h, fun _ => rfl⟩
  case rearm => exact .inr ⟨.rearm, Option.some.inj h, fun _ => rfl⟩
  all_goals exact .inl h

theorem recoveryPhase_recovers (c : Result) : recoveryPhase c = .stopping ∨ recoveryPhase c = .rearming :=
  (recoveryPhase_eq c).elim (fun h => .inr h.2) (fun h => .inl h.2)

/-- Settles O26: a waiting step adds its token with `BusStep`, and then passes, raises or hangs; a release adds its
token and ends in `IDLE`. -/
theorem busStepFrame : Obligations.BusStepFrame := by
  intro s t i w hw hh h
  suffices (∃ r, t.trace = s.trace ++ [{ word := w, reply := r }]) ∧ StepFrame i s t ∧
      (t.result = s.result ∨ t.phase = .stopping ∨ t.phase = .rearming) by
    obtain ⟨htrace, hf, hres⟩ := this
    exact ⟨htrace, hf.pis, hf.interface, hf.busy, hf.general, hf.operands, hf.rbuf, hres⟩
  rcases busWord_cases hw with hw | ⟨k, rfl, hi⟩
  · obtain ⟨k, d, f, rfl, hi⟩ := exists_isWaitingStep hw
    rw [hi.exec_eq] at h
    cases h
    rcases waitingStep_cases s k d f hh with ⟨_, _, rx, _, _, _, e⟩ | ⟨c, _, _, _, _, e⟩ | ⟨_, _, _, e⟩ <;> rw [e]
    · have hf := hi.passFrame rx (s.busWait k d)
      exact ⟨⟨_, hf.trace⟩, (StepFrame.busWait i s k d).trans hf.toStepFrame rfl, .inl hf.result⟩
    · exact ⟨⟨_, rfl⟩, (StepFrame.busWait i s k d).trans (.raise i _ c) rfl, .inr (recoveryPhase_recovers c)⟩
    · exact ⟨⟨_, rfl⟩, .busWait i s k d, .inl rfl⟩
  · rw [hi, releaseStep_eq k hh] at h
    cases h
    exact ⟨⟨_, rfl⟩, .busRelease i s k .idle, .inl rfl⟩

end Sys2Proof.Machine

/-! The outcomes of the seven waiting instructions under scripted answers: a failing status, a wait that is given up or
never ends, and a step that passes. -/

namespace Sys2Proof.Machine

open Config

/-! ## Waits that are not allowed (40_bus_steps.md R90) -/

theorem Environment.draw_script (q : Params) (e : Environment) (n : Nat) (k : StepKind) (d : Byte) :
    (e.draw q n k d).1.script = e.script.tail := by
  unfold Environment.draw; split <;> rfl

/-- The environment's answer is its own or `ENV0`'s, with the script over it. -/
theorem Environment.draw_answer (q : Params) (e : Environment) (n : Nat) (k : StepKind) (d : Byte) :
    ∃ a, (e.draw q n k d).2 = e.scripted a := by
  unfold Environment.draw; split <;> exact ⟨_, rfl⟩

/-- A scripted wait is the answer's, whatever the environment is otherwise. -/
theorem Environment.draw_wait {q : Params} {e : Environment} {o : Override} {v : Wait} (n : Nat) (k : StepKind)
    (d : Byte) (h : e.script.head? = some o) (hw : o.w = some v) : (e.draw q n k d).2.w = v := by
  obtain ⟨a, ha⟩ := e.draw_answer q n k d
  obtain ⟨l, hl⟩ := List.head?_eq_some_iff.mp h
  simp [ha, Environment.scripted, hl, Override.apply, hw]

theorem replyOf_notReady {l : Nat} {pos : 1 ≤ l} {a : Answer} (h : a.w = .never ∨ ∃ n, a.w = .polls n ∧ l ≤ n) :
    replyOf (.polls l pos) a = .notReady := by
  rcases h with h | ⟨n, h, hn⟩
  · simp only [replyOf, h]
  · simp only [replyOf, h, if_pos hn]

section
variable {s : State} {o : Override}

theorem State.replyTo_notReady {l : Nat} {pos : 1 ≤ l} (k : StepKind) (d : Byte)
    (hl : s.params.waitLimit = .polls l pos) (ho : s.env.script.head? = some o)
    (hw : o.w = some .never ∨ ∃ n, o.w = some (.polls n) ∧ l ≤ n) : s.replyTo k d = .notReady := by
  rw [State.replyTo, hl]
  refine replyOf_notReady (hw.imp (Environment.draw_wait _ k d ho) ?_)
  exact fun ⟨n, hn, hle⟩ => ⟨n, Environment.draw_wait _ k d ho hn, hle⟩

theorem State.replyTo_endless (k : StepKind) (d : Byte) (hl : s.params.waitLimit = .inf)
    (ho : s.env.script.head? = some o) (hw : o.w = some .never) : s.replyTo k d = .never :=
  replyOf_never.mpr ⟨hl, Environment.draw_wait _ k d ho hw⟩

/-- What `BusStep` leaves, by the reply the block sees. -/
theorem busWait_of_replyTo {k : StepKind} {d : Byte} {r : Reply} (hh : s.hung = false) (h : s.replyTo k d = r) :
    s.busWait k d =
      { s with
        waitcnt := waitcntAfter s.params.waitLimit r
        hung := r == .never
        env := (s.busWait k d).env
        free := (s.busWait k d).free
        trace := s.trace ++ [{ word := k.word d, reply := r }] } := by
  subst h
  simp [State.busWait, State.emit, hh]

end

/-! ## The three ways in which a waiting instruction does not pass -/

/-- Settles O22: the status is classified as the instruction's failure, which is raised. -/
theorem failingStatusRaises : Obligations.FailingStatusRaises := by
  intro s i w n st rx hh hw hn ha hp
  obtain ⟨k, d, f, rfl, hi⟩ := exists_isWaitingStep hw
  have hc : classifyStatus k st = some (failsWith i st) := by
    simp [classifyStatus_eq, hi.passes_eq, hi.failureOf_eq, hp]
  have hr : s.waitingStep k d f = (s.busWait k d).raise (failsWith i st) := by
    simp [State.waitingStep, hh, State.replyTo_scripted k d hn ha, hc]
  refine ⟨_, (hi.exec_eq s).trans (congrArg _ hr), Environment.draw_script .., ?_⟩
  rw [busWait_scripted k d hh hn ha]
  rfl

/-- Settles O23: the reply is `NOT_READY`, for which `TIMEOUT` is raised. -/
theorem givenUpWaitIsTimeout : Obligations.GivenUpWaitIsTimeout := by
  intro s i w l pos o hh hw hl ho hwait
  obtain ⟨k, d, f, rfl, hi⟩ := exists_isWaitingStep hw
  have hreply := State.replyTo_notReady k d hl ho hwait
  have hr : s.waitingStep k d f = (s.busWait k d).raise .timeout := by simp [State.waitingStep, hh, hreply]
  have hcount : waitcntAfter s.params.waitLimit .notReady = l := by rw [hl]; rfl
  refine ⟨_, (hi.exec_eq s).trans (congrArg _ hr), Environment.draw_script .., ?_⟩
  rw [busWait_of_replyTo hh hreply, hcount]
  simp [State.raise, recoveryPhase, hh]

/-- Settles O24: the reply never comes, and the step ends with its wait. -/
theorem endlessWaitHangs : Obligations.EndlessWaitHangs := by
  intro s i w o hh hw hl ho hwait
  obtain ⟨k, d, f, rfl, hi⟩ := exists_isWaitingStep hw
  have hreply := State.replyTo_endless k d hl ho hwait
  have hr : s.waitingStep k d f = s.busWait k d := by simp [State.waitingStep, hh, hreply]
  exact ⟨_, (hi.exec_eq s).trans (congrArg _ hr), busWait_of_replyTo hh hreply⟩

/-! ## Steps that pass -/

/-- A `START` whose effect of `PASS` is on `phase` only. -/
theorem start_passes {s : State} {i : Instr} {n : Nat} {st rx : Byte} {f : Byte → State → State} {p : Phase}
    (hh : s.hung = false) (h : s.NextAnswer n st rx) (ha : allows s.params.waitLimit n = true)
    (hst : st = 0x08 ∨ st = 0x10) (hi : exec i s = .next (s.waitingStep .start 0 f))
    (hf : f rx (s.busWait .start 0) = { s.busWait .start 0 with phase := p }) :
    ∃ t, exec i s = .next t ∧ t.env.script = s.env.script.tail ∧ t = { s with
      phase := p, waitcnt := n, env := t.env, free := t.free
      trace := s.trace ++ [{ word := 0x000, reply := .ready n st rx }] } := by
  have hc : classifyStatus .start st = none := by rcases hst with rfl | rfl <;> rfl
  have hr := (waitingStep_scripted_passes 0 f hh h ha hc).trans hf
  refine ⟨_, hi.trans (congrArg _ hr), Environment.draw_script .., ?_⟩
  rw [busWait_scripted .start 0 hh h ha]
  rfl

/-- Settles O17: `START` moves by the phase it is issued in, `RSTART` to `R_ADDR`. -/
theorem startStepsPass : Obligations.StartStepsPass := fun _ _ _ _ hh h ha hst =>
  ⟨fun hp => start_passes hh h ha hst rfl (by simp [hp]), fun hp => start_passes hh h ha hst rfl (by simp [hp]),
    start_passes hh h ha hst rfl rfl⟩

/-- Where the write phase goes after the byte at `idx` (40_bus_steps.md R96). -/
theorem afterTxd_succ {t : State} (h : t.idx.toNat < t.wlen.toNat) :
    afterTxd { t with idx := t.idx + 1 } =
      if t.idx.toNat + 1 < t.wlen.toNat then .wData else if t.rlen = 0 then .stopping else .rStart := by
  have hi : t.idx.toNat < 255 := by have := t.wlen.isLt; omega
  simp only [afterTxd, toNat_add_one hi, ne_eq, ite_not]

/-- Settles O19: the byte is counted, and the phase follows from the count. -/
theorem txdPasses : Obligations.TxdPasses := by
  intro s d n rx hh ha h hi
  have hlt : s.idx.toNat < 255 := by have := s.wlen.isLt; omega
  refine ⟨_, congrArg Host.Outcome.next (waitingStep_scripted_passes d _ hh h ha rfl), Environment.draw_script ..,
    toNat_add_one hlt, ?_⟩
  rw [afterTxd_succ (t := s.busWait .txd d) hi, busWait_scripted .txd d hh h ha]
  rfl

theorem set_eq_setIfInBounds {α : Type} {n i : Nat} (v : Vector α n) (x : α) (h : i < n) :
    v.set i x = v.setIfInBounds i x := by
  ext j hj
  rw [Vector.getElem_setIfInBounds, Vector.getElem_set]

/-- A read step whose effect of `PASS` is to store the byte and go to the phase `p`. -/
theorem read_passes {s : State} {i : Instr} {k : StepKind} {n : Nat} {st rx : Byte}
    {f : Byte → State → State} {p : Phase} (hi : s.idx.toNat < 255) (hh : s.hung = false)
    (ha : allows s.params.waitLimit n = true) (hc : s.rcount.toNat < 255) (h : s.NextAnswer n st rx)
    (hst : classifyStatus k st = none) (he : exec i s = .next (s.waitingStep k 0 f))
    (hf : f rx (s.busWait k 0) = { (s.busWait k 0).storeReceived rx with phase := p }) :
    ∃ t, exec i s = .next t ∧ t.env.script = s.env.script.tail ∧ t.idx.toNat = s.idx.toNat + 1 ∧
      t.rcount.toNat = s.rcount.toNat + 1 ∧ t = { s with
        rbuf := s.rbuf.set s.idx.toNat rx, rcount := t.rcount, idx := t.idx
        phase := p, waitcnt := n, env := t.env, free := t.free
        trace := s.trace ++ [{ word := k.word 0, reply := .ready n st rx }] } := by
  have hr := (waitingStep_scripted_passes 0 f hh h ha hst).trans hf
  refine ⟨_, he.trans (congrArg _ hr), Environment.draw_script .., toNat_add_one hi, toNat_add_one hc, ?_⟩
  rw [set_eq_setIfInBounds, busWait_scripted k 0 hh h ha]
  rfl

/-- Settles O20: both store the byte and count it, and differ in the phase they go to. -/
theorem readStepsPass : Obligations.ReadStepsPass := fun _ _ _ hi hh ha hc =>
  ⟨fun h => read_passes hi hh ha hc h (k := .rxa) rfl rfl rfl,
    fun h => read_passes hi hh ha hc h (k := .rxn) rfl rfl rfl⟩

end Sys2Proof.Machine

/-! The `XACT` commands: the transitions of `phase`, the empty transaction, and what a transaction adds and leaves. -/

namespace Sys2Proof.Machine

open Config

/-! ## The transitions of `phase` (41_transaction.md R120) -/

/-- The bus step of a waiting phase, with the reply the block sees: it passes, raises its class, or hangs. -/
theorem issue_by_reply {s : State} {k : StepKind} (hh : s.hung = false) (hw : s.phase.waits = true)
    (hk : s.stepKind = some k) :
    (∃ n st rx, s.replyTo k s.stepData = .ready n st rx ∧ classifyStatus k st = none ∧
        (s.busWait k s.stepData).hung = false ∧ issue s = (s.busWait k s.stepData).afterPass rx) ∨
      (∃ c, c ≠ .ok ∧ c ≠ .invalidArgument ∧ (s.busWait k s.stepData).hung = false ∧
        classify k (s.replyTo k s.stepData) = some c ∧ issue s = (s.busWait k s.stepData).raise c) ∨
      (s.replyTo k s.stepData = .never ∧ (s.busWait k s.stepData).hung = true ∧
        issue s = s.busWait k s.stepData) := by
  obtain ⟨f, hi, hf⟩ := issue_eq_waitingStep_stepKind hw hk
  rcases waitingStep_cases s k s.stepData f hh with
    ⟨n, st, rx, hr, hc, hn, e⟩ | ⟨c, hc, hc', hn, hr, e⟩ | ⟨hr, _, hn, e⟩
  · exact .inl ⟨n, st, rx, hr, hc, hn, by rw [hi, e, hf]⟩
  · have hclass : classify k (s.replyTo k s.stepData) = some c := by
      rcases hr with ⟨hr, rfl⟩ | ⟨n, st, rx, hr, hst⟩
      · rw [hr]; rfl
      · rw [hr]; exact hst
    exact .inr (.inl ⟨c, hc, hc', hn, hclass, hi.trans e⟩)
  · exact .inr (.inr ⟨hr, hn, hi.trans e⟩)

theorem afterPass_phase_eq_passPhase {t : State} (rx : Byte) (hw : t.phase.waits = true) (hi : t.idx.toNat < 255) :
    (t.afterPass rx).phase = t.passPhase := by
  cases hp : t.phase <;> simp only [hp, Phase.waits, Bool.false_eq_true] at hw <;>
    simp only [State.afterPass, State.passPhase, hp]
  case wData => simp only [afterTxd, toNat_add_one hi, ne_eq, ite_not]

theorem stepKind_phase_ne_idle {s : State} {k : StepKind} (h : s.stepKind = some k) : s.phase ≠ .idle := by
  intro hp
  simp [State.stepKind, hp] at h

/-- A release by its phase: the kind, and the phase it leads to. -/
theorem issue_of_release {s : State} {k : StepKind} (hh : s.hung = false)
    (hr : s.phase = .stopping ∨ s.phase = .rearming) (hk : s.stepKind = some k) :
    issue s = { s.busRelease k with phase := .idle } ∧ s.passPhase = .idle := by
  rcases hr with hr | hr <;> simp only [State.stepKind, hr, Option.some.injEq] at hk <;> subst hk <;>
    simp only [issue, State.passPhase, hr] <;> exact ⟨releaseStep_eq _ hh, trivial⟩

/-- The classes a recovery follows, by the phase it is issued in (60_exceptions.md R174). -/
theorem recoveryPhase_of_failure {c : Result} (hc : c ≠ .ok) (hc' : c ≠ .invalidArgument) :
    c = .arbitrationLost ∧ recoveryPhase c = .rearming ∨
      (c = .addressNack ∨ c = .dataNack ∨ c = .timeout) ∧ recoveryPhase c = .stopping := by
  cases c
  case ok => exact absurd rfl hc
  case invalidArgument => exact absurd rfl hc'
  all_goals decide

/-- Settles O29: acceptance goes by the two lengths; a waiting step goes by the class of its reply, and a release to
`IDLE`. -/
theorem phaseMovesAsListed : Obligations.PhaseMovesAsListed := by
  refine ⟨fun s a p n hp => by simp [accepted, acceptPhase, hp], fun s t k hb hh hk hi h hn => ?_⟩
  have hp := stepKind_phase_ne_idle hk
  rw [step_issue hb hh hp] at h
  cases h
  have hword : ∀ d, (k.word d).extractLsb' 8 3 = k.op := Laws.EncodedShape.op_stepWordOf k.op
  rcases Phase.waits_or_releases hp with hw | hr
  · rcases issue_by_reply hh hw hk with ⟨n, st, rx, hr, hc, _, e⟩ | ⟨c, hc, hc', _, hr, e⟩ | ⟨_, hn', e⟩
    · have hclass : classify k (s.replyTo k s.stepData) = none := by rw [hr]; exact hc
      refine ⟨_, s.replyTo k s.stepData, by rw [e]; simp, hword s.stepData, fun _ => ?_, fun c h => ?_⟩
      · rw [e]
        exact ⟨afterPass_phase_eq_passPhase (t := s.busWait k s.stepData) rx hw hi, by simp⟩
      · simp [hclass] at h
    · refine ⟨_, s.replyTo k s.stepData, by rw [e]; simp, hword s.stepData, fun h => ?_, fun c' h => ?_⟩
      · simp [hr] at h
      · obtain rfl := Option.some.inj (hr.symm.trans h)
        rw [e]
        exact ⟨hw, rfl, recoveryPhase_of_failure hc hc'⟩
    · rw [e, hn'] at hn
      cases hn
  · obtain ⟨e, hpass⟩ := issue_of_release hh hr hk
    rw [e, hpass]
    exact ⟨_, .noAnswer, rfl, hword 0, fun _ => ⟨rfl, rfl⟩, fun c h => nomatch h⟩

/-! ## The empty transaction (41_transaction.md R111) -/

@[simp] theorem loadBuffer_nil {n : Nat} (old : Vector Byte n) : loadBuffer old [] = old := by
  ext i hi
  simp [loadBuffer]

/-- The empty form is no more than its start. -/
theorem transact_empty (a : BusAddr) {s : State} (hh : s.hung = false) :
    transact a [] 0 s = s.beginTransaction a [] 0 := by
  simp [transact, hh]

/-- The four `XACT` commands in an idle block (10_state.md R20). -/
theorem exec_xact_idle {i : Instr} {a : BusAddr} {p : List Byte} {n : Byte} {s : State}
    (h : xactOperands i = some (a, p, n)) (hs : s.Idle) :
    exec i s = .next (respondXact (transact a p n s.accept)) := by
  rw [exec_xact h, directTransaction, whenIdle_idle hs]

theorem respondXact_of_not_hung {s : State} (h : s.hung = false) : respondXact s = s.respond s.xactResponse := by
  simp [respondXact, h]

/-- Settles O30: the transaction is no more than its start, and the response follows. -/
theorem emptyTransactionIsInvalid : Obligations.EmptyTransactionIsInvalid := by
  intro s a hs
  rw [exec_xact_idle rfl hs, transact_empty a (s := s.accept) hs.2,
    respondXact_of_not_hung (by simpa using hs.2)]
  obtain ⟨hb, _⟩ := hs
  simp [State.beginTransaction, State.loadTransaction, State.accept, State.respond, State.xactResponse,
    State.received, Result.code, hb]

/-! ## What a transaction leaves (41_transaction.md R121) -/

@[simp] theorem transact_pis (a : BusAddr) (p : List Byte) (n : Byte) (s : State) :
    (transact a p n s).pis = s.pis := by
  simp [State.pis]

@[simp] theorem respondXact_pis (s : State) : (respondXact s).pis = s.pis := by
  unfold respondXact; split <;> rfl

@[simp] theorem respondXact_params (s : State) : (respondXact s).params = s.params := by
  unfold respondXact; split <;> rfl

/-- Settles O35: neither acceptance nor the transaction nor the response writes one of these. -/
theorem directTransactionsKeepTheSequencer : Obligations.DirectTransactionsKeepTheSequencer := by
  intro s t i hi h
  obtain ⟨⟨a, p, n⟩, ho⟩ := Option.isSome_iff_exists.mp hi
  rw [exec_xact ho] at h
  cases h
  unfold directTransaction State.whenIdle
  split
  · exact ⟨rfl, rfl, rfl⟩
  · exact ⟨(respondXact_pis _).trans (transact_pis ..), by simp, by simp⟩

/-! ## The number of bus steps (41_transaction.md R119) -/

/-- Since `s`, at most `n` tokens were added. -/
def TokensSince (n : Nat) (s t : State) : Prop := ∃ tokens, t.trace = s.trace ++ tokens ∧ tokens.length ≤ n

theorem TokensSince.of_trace {n : Nat} {s t : State} (h : t.trace = s.trace) : TokensSince n s t :=
  ⟨[], by simp [h], Nat.zero_le n⟩

theorem TokensSince.trans {m n : Nat} {s t u : State} (h : TokensSince m s t) (h' : TokensSince n t u) :
    TokensSince (m + n) s u := by
  obtain ⟨l, hl, hm⟩ := h
  obtain ⟨l', hl', hn⟩ := h'
  exact ⟨l ++ l', by rw [hl', hl, List.append_assoc], by rw [List.length_append]; exact Nat.add_le_add hm hn⟩

/-- A bus step of the engine adds one token (40_bus_steps.md R102). -/
theorem issue_tokensSince {s : State} (hh : s.hung = false) (hp : s.phase ≠ .idle) : TokensSince 1 s (issue s) := by
  obtain ⟨k, _, ⟨_, ⟨rx, _, e⟩ | ⟨c, e⟩ | ⟨_, e⟩⟩ | ⟨_, e⟩⟩ := issue_cases hh hp <;> rw [e]
  · exact ⟨[_], State.afterPass_trace _ _, Nat.le_refl 1⟩
  · exact ⟨[_], rfl, Nat.le_refl 1⟩
  · exact ⟨[_], rfl, Nat.le_refl 1⟩
  · exact ⟨[_], rfl, Nat.le_refl 1⟩

theorem engine_tokensSince (n : Nat) (s : State) : TokensSince n s (engine n s) := by
  induction n generalizing s with
  | zero => exact .of_trace rfl
  | succ n ih =>
    by_cases hh : s.hung = true
    · rw [engine_hung hh]; exact .of_trace rfl
    by_cases hp : s.phase = .idle
    · rw [engine_idle hp]; exact .of_trace rfl
    rw [Bool.not_eq_true] at hh
    rw [engine_succ hh hp, Nat.add_comm]
    exact (issue_tokensSince hh hp).trans (ih _)

theorem transact_tokensSince (a : BusAddr) (p : List Byte) (n : Byte) (s : State) :
    TokensSince (p.length + n.toNat + 5) s (transact a p n s) := by
  have hbegin : (s.beginTransaction a p n).trace = s.trace := by simp
  unfold transact
  split_ifs
  · exact .of_trace rfl
  · exact .of_trace hbegin
  · have hbound : (s.beginTransaction a p n).stepBound ≤ p.length + n.toNat + 5 := by
      simp only [State.stepBound, State.beginTransaction_wlen, State.beginTransaction_rlen, BitVec.toNat_ofNat]
      have := Nat.mod_le p.length (2 ^ 8)
      omega
    obtain ⟨l, hl, hn⟩ := engine_tokensSince (s.beginTransaction a p n).stepBound (s.beginTransaction a p n)
    exact ⟨l, hl.trans (by rw [hbegin]), hn.trans hbound⟩

/-- Settles O38: the engine runs at most `stepBound` bus steps, each with one token. -/
theorem transactionStepBound : Obligations.TransactionStepBound := by
  intro s t i a p n ho _ h
  rw [exec_xact ho] at h
  cases h
  unfold directTransaction State.whenIdle
  split
  · exact TokensSince.of_trace rfl
  · obtain ⟨l, hl, hn⟩ := transact_tokensSince a p n s.accept
    exact ⟨l, by simpa using hl, hn⟩

end Sys2Proof.Machine

/-! A transaction is its steps in order: the function `Transact` and the phases agree (41_transaction.md R119). -/

namespace Sys2Proof.Machine

open Config

/-! ## The bus and the environment -/

/-- What the function `Transact` reads and writes of a state: the environment and the trace, and what its answers come
from. -/
def State.bus (s : State) : Params × Environment × Nat × List Token := (s.params, s.env, s.free, s.trace)

/-- The outcome of `Transact`, as far as it is one: result and data, and the bus after it. -/
def onBus (x : Option (Result × List Byte) × State) :
    Option (Result × List Byte) × Params × Environment × Nat × List Token := (x.1, x.2.bus)

section
variable {s t : State}

theorem State.bus_eq_iff : s.bus = t.bus ↔
    s.params = t.params ∧ s.env = t.env ∧ s.free = t.free ∧ s.trace = t.trace := by simp [State.bus]

theorem State.replyTo_of_bus (h : s.bus = t.bus) (k : StepKind) (d : Byte) : s.replyTo k d = t.replyTo k d := by
  obtain ⟨hp, he, hf, _⟩ := State.bus_eq_iff.mp h
  rw [State.replyTo, hp, he, hf, State.replyTo]

theorem State.busWait_of_bus (h : s.bus = t.bus) (k : StepKind) (d : Byte) :
    (s.busWait k d).bus = (t.busWait k d).bus := by
  have hr := State.replyTo_of_bus h k d
  obtain ⟨hp, he, hf, ht⟩ := State.bus_eq_iff.mp h
  simp [State.bus, hp, he, hf, ht, hr]

theorem State.busRelease_of_bus (h : s.bus = t.bus) (k : StepKind) : (s.busRelease k).bus = (t.busRelease k).bus := by
  obtain ⟨hp, he, hf, ht⟩ := State.bus_eq_iff.mp h
  simp [State.bus, hp, he, hf, ht]

end

@[simp] theorem State.afterPass_bus (t : State) (rx : Byte) : (t.afterPass rx).bus = t.bus := by
  unfold afterPass; split <;> rfl

/-! ## `Transact` as a list of steps (30_encoding.md R72, 41_transaction.md R119) -/

/-- What a passing step adds to the bytes received (40_bus_steps.md R97, R101). -/
def StepKind.delivers (k : StepKind) (rx : Byte) : List Byte := if k == .rxa || k == .rxn then [rx] else []

/-- Waiting steps in order, then the `STOP`. -/
def specSteps : List (StepKind × Byte) → List Byte → State → Option (Result × List Byte) × State
  | [], rdata, s => specDone rdata s
  | (k, d) :: more, rdata, s => specThen k d rdata (fun rx t => specSteps more (rdata ++ k.delivers rx) t) s

section
variable {s : State} {k : StepKind} {d : Byte} {rdata : List Byte}
  {next : Byte → State → Option (Result × List Byte) × State}

/-- A step that passes goes on with the byte received. -/
theorem specThen_passes {n : Nat} {st rx : Byte} (hr : s.replyTo k d = .ready n st rx)
    (hc : classifyStatus k st = none) : specThen k d rdata next s = next rx (s.busWait k d) := by
  simp [specThen, specStep, hr, classify, hc]

/-- A step whose reply is classified as `c` ends with it. -/
theorem specThen_fails {c : Result} (hc : classify k (s.replyTo k d) = some c) :
    specThen k d rdata next s = specFail c rdata (s.busWait k d) := by
  cases hr : s.replyTo k d with
  | never => rw [hr] at hc; cases hc
  | _ => rw [hr] at hc; simp only [specThen, specStep, hr, hc]

/-- A step that is never answered ends the function. -/
theorem specThen_hangs (hr : s.replyTo k d = .never) : specThen k d rdata next s = (none, s.busWait k d) := by
  simp [specThen, specStep, hr]

end

/-- What the reply to a waiting step makes of it: it passes, it fails, or it hangs (40_bus_steps.md R90, R100). -/
theorem State.replyTo_cases (s : State) (k : StepKind) (d : Byte) :
    (∃ n st rx, s.replyTo k d = .ready n st rx ∧ classifyStatus k st = none) ∨
      (∃ c, classify k (s.replyTo k d) = some c) ∨ s.replyTo k d = .never := by
  cases hr : s.replyTo k d with
  | noAnswer => exact absurd hr (State.replyTo_ne_noAnswer s k d)
  | ready n st rx =>
    cases hc : classifyStatus k st with
    | none => exact .inl ⟨n, st, rx, rfl, hc⟩
    | some c => exact .inr (.inl ⟨c, hc⟩)
  | notReady => exact .inr (.inl ⟨.timeout, rfl⟩)
  | never => exact .inr (.inr rfl)

/-- The steps depend on the bus alone. -/
theorem specSteps_of_bus (l : List (StepKind × Byte)) (rdata : List Byte) {s t : State} (h : s.bus = t.bus) :
    onBus (specSteps l rdata s) = onBus (specSteps l rdata t) := by
  induction l generalizing rdata s t with
  | nil => exact congrArg (some (Result.ok, rdata), ·) (State.busRelease_of_bus h _)
  | cons e more ih =>
    obtain ⟨k, d⟩ := e
    have hw := State.busWait_of_bus h k d
    have he := State.replyTo_of_bus h k d
    rcases s.replyTo_cases k d with ⟨n, st, rx, hr, hc⟩ | ⟨c, hc⟩ | hr
    · rw [specSteps, specThen_passes hr hc, specSteps, specThen_passes (he ▸ hr) hc]
      exact ih _ hw
    · rw [specSteps, specThen_fails hc, specSteps, specThen_fails (he ▸ hc)]
      exact congrArg (some (c, rdata), ·) (State.busRelease_of_bus hw _)
    · rw [specSteps, specThen_hangs hr, specSteps, specThen_hangs (he ▸ hr)]
      exact congrArg (none, ·) hw

/-- The steps of a read loop of `n` bytes (41_transaction.md R116). -/
def receiveSteps : Nat → List (StepKind × Byte)
  | 0 => []
  | n + 1 => (if n = 0 then .rxn else .rxa, 0) :: receiveSteps n

/-- The steps of a write loop (41_transaction.md R115). -/
def sendSteps (l : List Byte) : List (StepKind × Byte) := l.map fun d => (.txd, d)

/-- The steps of the read phase, if there is one (41_transaction.md R116). -/
def readPhaseSteps (a : BusAddr) (n : Nat) : List (StepKind × Byte) := if n = 0 then [] else readSteps a n

theorem receiveSteps_eq_replicate {n : Nat} (h : n ≠ 0) :
    receiveSteps n = List.replicate (n - 1) (.rxa, 0) ++ [(.rxn, 0)] := by
  induction n with
  | zero => exact absurd rfl h
  | succ n ih =>
    cases n with
    | zero => rfl
    | succ m => rw [receiveSteps, ih (Nat.succ_ne_zero m)]; rfl

theorem readSteps_eq (a : BusAddr) {n : Nat} (h : n ≠ 0) :
    readSteps a n = (.start, 0) :: (.slar, addrRead a) :: receiveSteps n := by
  rw [readSteps, receiveSteps_eq_replicate h]

theorem specRead_eq_specSteps (n : Nat) (rdata : List Byte) (s : State) :
    specRead n rdata s = specSteps (receiveSteps n) rdata s := by
  induction n generalizing rdata s with
  | zero => rfl
  | succ n ih =>
    simp only [specRead, receiveSteps, specSteps, ih]
    split <;> rfl

theorem specReadPhase_eq_specSteps (a : BusAddr) (n : Nat) (s : State) :
    specReadPhase a n s = specSteps (readPhaseSteps a n) [] s := by
  unfold specReadPhase readPhaseSteps
  split
  · rfl
  · rw [readSteps_eq a ‹_›]
    simp only [specRead_eq_specSteps, specSteps]
    rfl

theorem specWrite_eq_specSteps (a : BusAddr) (n : Nat) (l : List Byte) (s : State) :
    specWrite a n l s = specSteps (sendSteps l ++ readPhaseSteps a n) [] s := by
  induction l generalizing s with
  | nil => exact specReadPhase_eq_specSteps a n s
  | cons d ds ih =>
    simp only [specWrite, ih]
    rfl

/-- A transaction that is not empty is its steps in order (30_encoding.md R72). -/
theorem specTransact_eq_specSteps (a : BusAddr) {l : List Byte} {n : Nat} (hne : ¬(l = [] ∧ n = 0)) (s : State) :
    specTransact a l n s = specSteps (transactionSteps a l n) [] s := by
  rw [specTransact, if_neg hne]
  by_cases hl : l = []
  · simp only [hl, ↓reduceIte, transactionSteps]
    exact specReadPhase_eq_specSteps a n s
  · simp only [hl, ↓reduceIte, transactionSteps, specWrite_eq_specSteps]
    rfl

/-- `Transact` depends on the bus alone. -/
theorem specTransact_of_bus (a : BusAddr) (l : List Byte) (n : Nat) {s t : State} (h : s.bus = t.bus) :
    onBus (specTransact a l n s) = onBus (specTransact a l n t) := by
  by_cases hne : l = [] ∧ n = 0
  · simp only [specTransact, hne, and_self, ↓reduceIte]
    exact congrArg (some (Result.invalidArgument, []), ·) h
  · rw [specTransact_eq_specSteps a hne, specTransact_eq_specSteps a hne]
    exact specSteps_of_bus _ _ h

/-! ## The steps that are still to come in each phase -/

/-- The waiting steps from a phase on, if all pass (41_transaction.md R115, R116). -/
def stepsToCome (a : BusAddr) (l : List Byte) (n : Byte) (t : State) : List (StepKind × Byte) :=
  match t.phase with
  | .wStart => writeSteps a l ++ readPhaseSteps a n.toNat
  | .wAddr => (.slaw, addrWrite a) :: sendSteps l ++ readPhaseSteps a n.toNat
  | .wData => sendSteps (l.drop t.idx.toNat) ++ readPhaseSteps a n.toNat
  | .rStart => readSteps a n.toNat
  | .rAddr => (.slar, addrRead a) :: receiveSteps n.toNat
  | .rData => receiveSteps (n.toNat - t.idx.toNat)
  | .stopping => []
  | .rearming => []
  | .idle => []

section
variable {a : BusAddr} {l : List Byte} {n : Byte} {t : State}

/-- After a byte of the payload the rest of it is to come, and then the read phase (40_bus_steps.md R96). -/
theorem stepsToCome_afterTxd (hw : t.wlen.toNat = l.length) (hr : t.rlen = n) :
    stepsToCome a l n { t with phase := afterTxd t } =
      sendSteps (l.drop t.idx.toNat) ++ readPhaseSteps a n.toNat := by
  by_cases hmore : t.idx.toNat < t.wlen.toNat
  · simp only [stepsToCome, afterTxd, hmore, ↓reduceIte]
  · have hall : l.drop t.idx.toNat = [] := List.drop_eq_nil_of_le (by omega)
    by_cases hn : n = 0#8
    · simp [stepsToCome, afterTxd, hmore, hall, hr, hn, sendSteps, readPhaseSteps]
    · have hn' : n.toNat ≠ 0 := toNat_ne_zero.mp hn
      simp [stepsToCome, afterTxd, hmore, hall, hr, hn, hn', sendSteps, readPhaseSteps]

/-- After a received byte the rest of the read loop is to come (40_bus_steps.md R97, R101). -/
theorem stepsToCome_afterRead (hlt : t.idx.toNat < n.toNat) (rx : Byte) :
    receiveSteps (n.toNat - t.idx.toNat) =
      (if t.idx.toNat + 1 < n.toNat then .rxa else .rxn, 0) ::
        stepsToCome a l n
          { t.storeReceived rx with phase := if t.idx.toNat + 1 < n.toNat then .rData else .stopping } := by
  have e : (t.idx + 1).toNat = t.idx.toNat + 1 := toNat_add_one (by have := n.isLt; omega)
  obtain ⟨m, hm⟩ : ∃ m, n.toNat - t.idx.toNat = m + 1 := ⟨n.toNat - t.idx.toNat - 1, by omega⟩
  by_cases hmore : t.idx.toNat + 1 < n.toNat
  · have hrest : n.toNat - (t.idx + 1).toNat = m := by omega
    have hm0 : m ≠ 0 := by omega
    simp only [hm, receiveSteps, hmore, hm0, ↓reduceIte, stepsToCome, State.storeReceived_idx, hrest]
  · obtain rfl : m = 0 := by omega
    simp only [hm, receiveSteps, hmore, ↓reduceIte, stepsToCome]

/-- The bus step of a phase is the first of the steps to come, and the phase it leads to has the others. -/
theorem stepsToCome_afterPass (ho : Loaded a l n t) (hi : PhaseInv t) (hw : t.phase.waits = true) {k : StepKind}
    (hk : t.stepKind = some k) (rx : Byte) :
    stepsToCome a l n t = (k, t.stepData) :: stepsToCome a l n (t.afterPass rx) := by
  have hrlen := ho.rlen
  cases hp : t.phase <;> simp only [hp, Phase.waits, Bool.false_eq_true] at hw <;>
    simp only [State.stepKind, hp, Option.some.injEq] at hk <;> subst hk <;> simp only [PhaseInv, hp] at hi
  case wStart => simp only [stepsToCome, State.stepData, State.afterPass, hp]; rfl
  case wAddr => simp [stepsToCome, State.stepData, State.afterPass, hp, ho.addr]
  case wData =>
    obtain ⟨_, _, _, hlt⟩ := hi
    have e : (t.idx + 1).toNat = t.idx.toNat + 1 := toNat_add_one (by have := t.wlen.isLt; omega)
    have hpass : t.afterPass rx = { t with idx := t.idx + 1, phase := afterTxd { t with idx := t.idx + 1 } } := by
      simp only [State.afterPass, hp]
    rw [ho.wlen] at hlt
    rw [hpass, stepsToCome_afterTxd (t := { t with idx := t.idx + 1 }) ho.wlen hrlen, e]
    simp only [stepsToCome, State.stepData, hp, List.drop_eq_getElem_cons hlt, ho.wbufAt hlt]
    rfl
  case rStart =>
    obtain ⟨hn, _⟩ := hi
    have hn' : n.toNat ≠ 0 := toNat_ne_zero.mp (hrlen ▸ hn)
    simp only [stepsToCome, State.stepData, State.afterPass, hp, readSteps_eq a hn']
  case rAddr => simp [stepsToCome, State.stepData, State.afterPass, hp, ho.addr]
  case rData =>
    obtain ⟨_, _, _, hlt⟩ := hi
    have hpass : t.afterPass rx =
        { t.storeReceived rx with phase := if t.idx.toNat + 1 < t.rlen.toNat then .rData else .stopping } := by
      simp only [State.afterPass, hp]
    subst hrlen
    rw [hpass]
    simp only [stepsToCome, State.stepData, hp]
    exact stepsToCome_afterRead hlt rx

/-- The bytes received after a step that passes. -/
theorem afterPass_received (hi : PhaseInv t) (hw : t.phase.waits = true) {k : StepKind} (hk : t.stepKind = some k)
    (rx : Byte) : (t.afterPass rx).received = t.received ++ k.delivers rx := by
  cases hp : t.phase <;> simp only [hp, Phase.waits, Bool.false_eq_true] at hw <;>
    simp only [State.stepKind, hp, Option.some.injEq] at hk <;> subst hk <;> simp only [State.afterPass, hp]
  case rData =>
    simp only [PhaseInv, hp] at hi
    obtain ⟨_, _, hc, hlt⟩ := hi
    have hdelivers : StepKind.delivers (if t.idx.toNat + 1 < t.rlen.toNat then .rxa else .rxn) rx = [rx] := by
      split <;> rfl
    rw [hdelivers]
    exact received_store rx hc (by have := t.rlen.isLt; rw [← hc]; omega)
  all_goals exact (List.append_nil _).symm

/-! ## The phases follow the steps -/

/-- What `Transact` still does from a phase on: the steps to come, or the release that the result asks for. -/
def specRest (a : BusAddr) (l : List Byte) (n : Byte) (t : State) : Option (Result × List Byte) × State :=
  if t.hung then (none, t)
  else
    match t.phase with
    | .idle => (some (t.result, t.received), t)
    | .stopping => (some (t.result, t.received), t.busRelease .stop)
    | .rearming => (some (t.result, t.received), t.busRelease .rearm)
    | _ => specSteps (stepsToCome a l n t) t.received t

theorem specRest_hung (h : t.hung = true) : specRest a l n t = (none, t) := by simp [specRest, h]

theorem specRest_idle (hh : t.hung = false) (hp : t.phase = .idle) :
    specRest a l n t = (some (t.result, t.received), t) := by
  simp [specRest, hh, hp]

/-- While nothing has failed, the steps to come and the `STOP`. -/
theorem specRest_of_ok (hh : t.hung = false) (hp : t.phase ≠ .idle ∧ t.phase ≠ .rearming) (hr : t.result = .ok) :
    specRest a l n t = specSteps (stepsToCome a l n t) t.received t := by
  cases h : t.phase <;> simp only [specRest, hh, h, Bool.false_eq_true, ↓reduceIte]
  case idle => exact absurd h hp.1
  case rearming => exact absurd h hp.2
  case stopping => simp [stepsToCome, h, specSteps, specDone, hr]

/-- After a failure, the release of its recovery (60_exceptions.md R174). -/
theorem specRest_raise (hh : t.hung = false) (c : Result) : specRest a l n (t.raise c) =
    (some (c, t.received), (t.raise c).busRelease (if c = .arbitrationLost then .rearm else .stop)) := by
  rcases recoveryPhase_eq c with ⟨hc, hp⟩ | ⟨hc, hp⟩ <;> simp [specRest, hh, hp, hc] <;> rfl

/-- In a waiting phase nothing has failed (41_transaction.md R115, R116). -/
theorem PhaseInv.result_ok (hi : PhaseInv t) (hw : t.phase.waits = true) : t.result = .ok := by
  cases hp : t.phase <;> simp only [hp, Phase.waits, Bool.false_eq_true] at hw <;> simp only [PhaseInv, hp] at hi <;>
    tauto

/-- A bus step of the engine is the next one of `Transact`. -/
theorem specRest_issue (ho : Loaded a l n t) (hi : PhaseInv t) (hh : t.hung = false) (hp : t.phase ≠ .idle) :
    onBus (specRest a l n (issue t)) = onBus (specRest a l n t) := by
  obtain ⟨k, hk⟩ := exists_stepKind hp
  rcases Phase.waits_or_releases hp with hw | hr
  · have hres := hi.result_ok hw
    have hsteps : specRest a l n t = specSteps (stepsToCome a l n t) t.received t :=
      specRest_of_ok hh ⟨hp, by rintro e; simp [e, Phase.waits] at hw⟩ hres
    have hwait (rx : Byte) : stepsToCome a l n t =
        (k, t.stepData) :: stepsToCome a l n ((t.busWait k t.stepData).afterPass rx) :=
      stepsToCome_afterPass (t := t.busWait k t.stepData) (ho.busWait _ _) hi hw hk rx
    rcases issue_by_reply hh hw hk with ⟨_, _, rx, hr, hc, hn, e⟩ | ⟨c, _, _, hn, hc, e⟩ | ⟨hr, hn, e⟩
    · have hphase := afterPass_phase (t := t.busWait k t.stepData) rx hw
      have hrec : ((t.busWait k t.stepData).afterPass rx).received = t.received ++ k.delivers rx :=
        afterPass_received (t := t.busWait k t.stepData) hi hw hk rx
      rw [e, hsteps, hwait rx, specSteps, specThen_passes hr hc,
        specRest_of_ok (by simpa using hn) hphase (by simpa using hres), hrec]
      exact specSteps_of_bus _ _ (State.afterPass_bus _ _)
    · rw [e, hsteps, hwait 0, specSteps, specThen_fails hc, specRest_raise hn]
      rfl
    · rw [e, hsteps, hwait 0, specSteps, specThen_hangs hr, specRest_hung hn]
  · obtain ⟨e, _⟩ := issue_of_release hh hr hk
    rw [e, specRest_idle (t := { t.busRelease k with phase := .idle }) hh rfl]
    rcases hr with hr | hr <;> simp only [State.stepKind, hr, Option.some.injEq] at hk <;> subst hk <;>
      simp only [specRest, hh, hr, Bool.false_eq_true, ↓reduceIte] <;> rfl

/-- Every bus step of the engine keeps what its phase implies. -/
theorem PhaseInv.issue (hi : PhaseInv t) (hh : t.hung = false) (hp : t.phase ≠ .idle) : PhaseInv (issue t) := by
  rcases Phase.waits_or_releases hp with hw | hr
  · obtain ⟨k, d, ⟨rx, _, e⟩ | ⟨c, hc, hc', _, e⟩ | ⟨_, _, e⟩⟩ := issue_waits hh hw <;> rw [e]
    · exact phaseInv_afterPass (t := t.busWait k d) rx hw hi
    · exact phaseInv_raise hc hc'
    · exact hi
  · obtain ⟨k, e⟩ := issue_releases hh hr
    rw [e]
    intro hok
    rcases hr with hr | hr <;> simp only [PhaseInv, hr] at hi
    · exact hi.2.2 hok
    · exact absurd (hi.symm.trans hok) (by simp)

theorem phaseInv_beginTransaction (a : BusAddr) (hne : ¬(l = [] ∧ n = 0)) (hl : l.length ≤ maxLen) (s : State) :
    PhaseInv (s.beginTransaction a l n) := by
  by_cases hl' : l = []
  · have hn : n ≠ 0#8 := fun hn => hne ⟨hl', hn⟩
    simp [PhaseInv, hl', hn]
  · simpa [PhaseInv, hl'] using payloadLength_ne_zero hl' hl

/-- At the start of a transaction all its steps are to come. -/
theorem specRest_begin (hne : ¬(l = [] ∧ n = 0)) {s : State} (hh : s.hung = false) :
    specRest a l n (s.beginTransaction a l n) =
      specSteps (transactionSteps a l n.toNat) [] (s.beginTransaction a l n) := by
  have hphase := beginTransaction_phase_nonempty s a hne
  have hres : (s.beginTransaction a l n).result = .ok := by rw [State.beginTransaction_result, if_neg hne]
  have hrec : (s.beginTransaction a l n).received = [] := received_eq_nil (by simp)
  have hsteps : stepsToCome a l n (s.beginTransaction a l n) = transactionSteps a l n.toNat := by
    by_cases hl : l = []
    · have hn : n ≠ 0#8 := fun hn => hne ⟨hl, hn⟩
      have hn' : n.toNat ≠ 0 := toNat_ne_zero.mp hn
      simp [stepsToCome, transactionSteps, hl, hn, hn']
    · simp [stepsToCome, transactionSteps, hl, readPhaseSteps]
  rw [specRest_of_ok (by simpa using hh) ⟨?_, ?_⟩ hres, hrec, hsteps]
  · rcases hphase with e | e <;> rw [e] <;> decide
  · rcases hphase with e | e <;> rw [e] <;> decide

theorem nonempty_toNat (hne : ¬(l = [] ∧ n = 0)) : ¬(l = [] ∧ n.toNat = 0) := fun ⟨h, h'⟩ =>
  hne ⟨h, BitVec.eq_of_toNat_eq h'⟩

/-- A transaction that is not empty: its operands, what its phase implies, and what is left of `Transact`. -/
theorem transact_follows (hne : ¬(l = [] ∧ n = 0)) (hl : l.length ≤ maxLen) {s : State} (hh : s.hung = false) :
    Loaded a l n (transact a l n s) ∧ PhaseInv (transact a l n s) ∧
      onBus (specRest a l n (transact a l n s)) = onBus (specTransact a l n.toNat s) := by
  have hbus : (s.beginTransaction a l n).bus = s.bus := by simp [State.bus]
  have hbegin : onBus (specRest a l n (s.beginTransaction a l n)) = onBus (specTransact a l n.toNat s) := by
    rw [specRest_begin hne hh, specTransact_eq_specSteps a (nonempty_toNat hne)]
    exact specSteps_of_bus _ _ hbus
  simp only [transact, hh, Bool.false_eq_true, ↓reduceIte, if_neg hne]
  exact engine_induct (P := fun t => Loaded a l n t ∧ PhaseInv t ∧
      onBus (specRest a l n t) = onBus (specTransact a l n.toNat s))
    (fun t ⟨ho, hi, h⟩ hh hp => ⟨ho.issue, hi.issue hh hp, (specRest_issue ho hi hh hp).trans h⟩) _ _
    ⟨Loaded.beginTransaction a n s hl, phaseInv_beginTransaction a hne hl s, hbegin⟩

/-- A transaction that is not empty and does not hang leaves its operands, and all its bytes if it ends `OK`. -/
theorem transact_completed (hne : ¬(l = [] ∧ n = 0)) (hl : l.length ≤ maxLen) {s : State} (hs : s.hung = false)
    (hh : (transact a l n s).hung = false) : (transact a l n s).phase = .idle ∧ Loaded a l n (transact a l n s) ∧
      ((transact a l n s).result = .ok → (transact a l n s).rcount = n) := by
  have hend := (transact_ends a n s hne hl).resolve_left (by simp [hh])
  obtain ⟨ho, hi, _⟩ := transact_follows (a := a) hne hl hs
  simp only [PhaseInv, hend] at hi
  exact ⟨hend, ho, fun hr => (hi hr).trans ho.rlen⟩

/-- A transaction does what `Transact` does (41_transaction.md R119). -/
theorem specTransact_transact (a : BusAddr) (n : Byte) (hl : l.length ≤ maxLen) {s : State} (hh : s.hung = false) :
    onBus (specTransact a l n.toNat s) =
      (if (transact a l n s).hung then none else some ((transact a l n s).result, (transact a l n s).received),
        (transact a l n s).bus) := by
  by_cases hne : l = [] ∧ n = 0
  · obtain ⟨rfl, rfl⟩ := hne
    rw [transact_empty a hh]
    simp [specTransact, onBus, hh, State.bus, received_eq_nil]
  · obtain ⟨_, _, h⟩ := transact_follows (a := a) hne hl hh
    rw [← h]
    cases ht : (transact a l n s).hung
    · rw [specRest_idle ht (transact_completed hne hl hh ht).1]
      rfl
    · rw [specRest_hung ht]
      rfl

end

end Sys2Proof.Machine

/-! What the host is answered for an `XACT` command: under every environment as `Transact` says, and under scripted
answers that let all steps pass or the first steps up to a failure. -/

namespace Sys2Proof.Machine

open Config

/-! ## The response (30_encoding.md R64) -/

theorem rcount_eq_received_length (s : State) : s.rcount = BitVec.ofNat 8 s.received.length := by
  rw [received_length, BitVec.ofNat_toNat, BitVec.setWidth_eq]

/-- A transaction that does not hang is answered with its result and the bytes received (60_exceptions.md R175). -/
theorem respondXact_answers {s : State} (h : s.hung = false) :
    respondXact s = s.respond (s.result.code.setWidth 8 :: BitVec.ofNat 8 s.received.length :: s.received) := by
  rw [respondXact_of_not_hung h, ← rcount_eq_received_length, State.xactResponse]

@[simp] theorem State.accept_bus (s : State) : s.accept.bus = s.bus := rfl

section
variable {a : BusAddr} {p : List Byte} {n : Byte} {s : State}

/-- `Transact`, run on the block as it accepts the command, is what the transaction does. -/
theorem specTransact_accept (hl : p.length ≤ maxLen) (hs : s.Idle) :
    onBus (specTransact a p n.toNat s) =
      (if (transact a p n s.accept).hung then none
        else some ((transact a p n s.accept).result, (transact a p n s.accept).received),
        (transact a p n s.accept).bus) := by
  rw [specTransact_of_bus a p n.toNat (s.accept_bus).symm]
  exact specTransact_transact a n hl hs.2

/-- The outcome of a transaction that `Transact` ends with result `c` and data `d`. -/
theorem transact_of_spec {c : Result} {d : List Byte} {u : State} (hl : p.length ≤ maxLen) (hs : s.Idle)
    (h : specTransact a p n.toNat s = (some (c, d), u)) :
    (transact a p n s.accept).hung = false ∧ (transact a p n s.accept).result = c ∧
      (transact a p n s.accept).received = d ∧ (transact a p n s.accept).bus = u.bus := by
  have hspec := specTransact_accept (a := a) (n := n) hl hs
  rw [h] at hspec
  obtain ⟨hout, hbus⟩ := Prod.mk.inj hspec
  cases hh : (transact a p n s.accept).hung
  · simp only [hh, Bool.false_eq_true, ↓reduceIte, Option.some.injEq, Prod.mk.injEq] at hout
    exact ⟨rfl, hout.1.symm, hout.2.symm, hbus.symm⟩
  · simp [hh] at hout

end

/-- Settles O33: the engine follows the steps of `Transact`, and the response is its result and data. -/
theorem transactionIsTransact : Obligations.TransactionIsTransact := by
  intro s i a p n ho hw hs
  have h := specTransact_accept (a := a) (n := n) (xactOperands_length ho hw) hs
  obtain ⟨hout, hbus⟩ := Prod.mk.inj h
  obtain ⟨_, henv, _, htrace⟩ := State.bus_eq_iff.mp hbus
  refine ⟨_, exec_xact_idle ho hs, by simp [htrace], by simp [henv], ?_⟩
  rw [hout]
  cases hh : (transact a p n s.accept).hung
  · rw [respondXact_answers hh]
    exact ⟨⟨rfl, hh⟩, rfl, rfl, by simp⟩
  · rw [respondXact_hung hh]
    exact ⟨hh, by simp, by simp⟩

/-! ## Scripted answers -/

theorem receivedBytes_cons (e : PassingStep) (l : List PassingStep) :
    receivedBytes (e :: l) = e.kind.delivers e.rx ++ receivedBytes l := by
  simp only [receivedBytes, List.filter_cons, StepKind.delivers]
  split <;> rfl

theorem passes_classifyStatus {k : StepKind} {st : Byte} (h : passes k st = true) : classifyStatus k st = none := by
  simp [classifyStatus, h]

/-- Steps that the environment lets pass go by with their tokens, and the bytes they receive are added. -/
theorem specSteps_passing {l : List PassingStep} {s : State} {rest : List Override}
    (more : List (StepKind × Byte)) (rdata : List Byte)
    (h : s.LetsPass (l.map fun e => (e.kind, e.data)) l rest) :
    ∃ t, t.params = s.params ∧ t.env.script = rest ∧ t.trace = s.trace ++ passingTokens l ∧
      specSteps (l.map (fun e => (e.kind, e.data)) ++ more) rdata s =
        specSteps more (rdata ++ receivedBytes l) t := by
  induction l generalizing s rdata with
  | nil => exact ⟨s, rfl, h.2.2, by simp [passingTokens], by simp [receivedBytes]⟩
  | cons e l ih =>
    obtain ⟨_, hall, hscript⟩ := h
    obtain ⟨⟨hallow, hpass⟩, hall'⟩ := List.forall_mem_cons.mp hall
    have hnext : s.NextAnswer e.wait e.status e.rx := by simp [State.NextAnswer, hscript, passingScript]
    have hreply := State.replyTo_scripted e.kind e.data hnext hallow
    have hscript' : (s.busWait e.kind e.data).env.script = passingScript l ++ rest := by
      rw [State.busWait_env, Environment.draw_script, hscript]; rfl
    obtain ⟨t, hp, hs, ht, hsteps⟩ := ih (s := s.busWait e.kind e.data) (rdata ++ e.kind.delivers e.rx)
      ⟨rfl, hall', hscript'⟩
    refine ⟨t, hp, hs, ?_, ?_⟩
    · rw [ht, State.busWait_trace, hreply]
      simp [passingTokens]
    · rw [List.map_cons, List.cons_append, specSteps, specThen_passes hreply (passes_classifyStatus hpass), hsteps,
        receivedBytes_cons, List.append_assoc]

/-- An answer that makes the next step fail is the reply the block sees, classified as the failure. -/
theorem replyTo_of_nextFails {s : State} {k : StepKind} {o : Override} {r : Reply} {c : Result} (d : Byte)
    (h : s.NextFails k o r c) (ho : s.env.script.head? = some o) : s.replyTo k d = r ∧ classify k r = some c := by
  obtain ⟨n, st, rx, rfl, ha, rfl, hc⟩ | ⟨l, pos, hl, hw, rfl, rfl⟩ := h
  · exact ⟨State.replyTo_scripted k d ho ha, hc⟩
  · exact ⟨State.replyTo_notReady k d hl ho hw, rfl⟩

@[simp] theorem State.busRelease_script (s : State) (k : StepKind) :
    (s.busRelease k).env.script = s.env.script := rfl

/-- The token of the recovery from a failure (60_exceptions.md R174). -/
theorem recoveryToken_eq (c : Result) :
    ({ word := StepKind.word (if c = .arbitrationLost then .rearm else .stop) 0, reply := .noAnswer } : Token) =
      if c = .arbitrationLost then rearmToken else stopToken := by
  split <;> rfl

/-- Settles O31: `Transact` passes all its steps and the `STOP`, and the transaction leaves its operands. -/
theorem passingTransactionCompletes : Obligations.PassingTransactionCompletes := by
  intro s i a p n l rest ho hw hi hs hpass
  have hl := xactOperands_length ho hw
  have hne : ¬(p = [] ∧ n = 0) := xactOperands_nonempty ho hw fun b hb => hi (by
    subst hb; simp only [xactOperands, Option.some.injEq, Prod.mk.injEq] at ho; rw [ho.1])
  obtain ⟨hsteps, hpass'⟩ := hpass
  obtain ⟨u, _, hscript, htrace, hspec⟩ := specSteps_passing (s := s) [] [] ⟨rfl, hpass'⟩
  rw [List.append_nil, hsteps, ← specTransact_eq_specSteps a (nonempty_toNat hne)] at hspec
  obtain ⟨hh, hres, hrec, hbus⟩ := transact_of_spec hl hs hspec
  obtain ⟨_, henv, _, htr⟩ := State.bus_eq_iff.mp hbus
  obtain ⟨hend, hload, hcount⟩ := transact_completed (a := a) hne hl (s := s.accept) hs.2 hh
  specialize hcount hres
  have hexec := (exec_xact_idle ho hs).trans (congrArg _ (respondXact_answers hh))
  rw [← rcount_eq_received_length, hcount, hres, hrec] at hexec
  refine ⟨_, hexec, hres, hcount, hrec, ?_, ?_, ⟨rfl, hh⟩, hload.addr, hload.rlen, hload.wlen, hload.wbuf, ?_, ?_,
    fun _ => hend⟩
  · rw [State.respond_trace, htr, State.busRelease_trace, htrace]
    rfl
  · rw [State.respond_responses, transact_responses]
    rfl
  · rw [State.respond_env, henv, State.busRelease_script, hscript]
  · rw [State.respond_inbox, transact_inbox]
    rfl

/-- Settles O32: `Transact` passes the first steps, fails at the next one and recovers. -/
theorem failurePointEndsTransaction : Obligations.FailurePointEndsTransaction := by
  intro s i a p n l k d more o r c rest ho hw hs hsteps hpass hfails
  have hne : ¬(p = [] ∧ n.toNat = 0) := by
    rintro ⟨rfl, hn⟩
    simp [transactionSteps, hn] at hsteps
  obtain ⟨u, hparams, hscript, htrace, hspec⟩ := specSteps_passing (s := s) ((k, d) :: more) [] hpass
  have hfails' : u.NextFails k o r c := by rwa [State.NextFails, hparams]
  obtain ⟨hreply, hclass⟩ := replyTo_of_nextFails d hfails' (by rw [hscript]; rfl)
  rw [← hsteps, ← specTransact_eq_specSteps a hne, specSteps,
    specThen_fails (by rw [hreply]; exact hclass)] at hspec
  obtain ⟨hh, hres, hrec, hbus⟩ := transact_of_spec (xactOperands_length ho hw) hs hspec
  obtain ⟨_, henv, _, htr⟩ := State.bus_eq_iff.mp hbus
  have hexec := (exec_xact_idle ho hs).trans (congrArg _ (respondXact_answers hh))
  rw [← rcount_eq_received_length, hres, hrec] at hexec
  refine ⟨_, hexec, hres, hrec, ⟨rfl, hh⟩, ?_, ?_, ?_, ?_⟩
  · rw [State.respond_rcount, ← received_length, hrec]
    rfl
  · rw [State.respond_trace, htr, State.busRelease_trace, State.busWait_trace, hreply, htrace,
      recoveryToken_eq, List.append_assoc, List.append_assoc, List.append_assoc]
    rfl
  · rw [State.respond_responses, transact_responses]
    rfl
  · rw [State.respond_env, henv, State.busRelease_script, State.busWait_env, Environment.draw_script, hscript]
    rfl

end Sys2Proof.Machine

/-! What the sequencer's operations leave unchanged (41_transaction.md R121, 42_register_protocol.md R133). -/

namespace Sys2Proof.Machine

open Config

/-! ## Registers -/

@[simp] theorem transact_interface (a : BusAddr) (p : List Byte) (n : Byte) (s : State) :
    (transact a p n s).interface = s.interface := by
  simp [State.interface]

/-- A transaction leaves the number of peripherals. -/
theorem transact_peripherals_length (a : BusAddr) (p : List Byte) (n : Byte) (s : State) :
    (transact a p n s).peripherals.length = s.peripherals.length := by
  have hbegin : (s.beginTransaction a p n).peripherals = s.peripherals := peripherals_of_env (by simp)
  unfold transact
  split_ifs
  · rfl
  · rw [hbegin]
  · rw [← hbegin]
    refine engine_induct (P := fun t => t.peripherals.length = (s.beginTransaction a p n).peripherals.length)
      (fun t ht hh hp => ?_) _ _ rfl
    obtain ⟨k, _, e⟩ := issue_peripherals hh hp
    rw [e, List.length_map, ht]

/-- `transact_keeps_register`, of a register that may not be there. -/
theorem transact_registerAt {a : BusAddr} {l : List Byte} (n : Byte) {s : State} {j : Nat} {x : Byte}
    (hl : l.length ≤ maxLen) (hx : ∀ p, s.peripherals[j]? = some p → ¬(p.answersAt a = true ∧ reaches l x)) :
    (transact a l n s).registerAt j x = s.registerAt j x := by
  cases hp : s.peripherals[j]? with
  | some p => exact transact_keeps_register n hl hp (hx p hp)
  | none =>
    have hp' : (transact a l n s).peripherals[j]? = none := by
      rw [List.getElem?_eq_none_iff, transact_peripherals_length, ← List.getElem?_eq_none_iff, hp]
    simp only [State.registerAt, hp, hp']

/-- A payload of at most a pointer byte stores nothing (20_memory.md R45). -/
theorem not_reaches_of_length_le {l : List Byte} (h : l.length ≤ 1) (x : Byte) : ¬reaches l x := by
  rintro ⟨r, vs, rfl, j, hj, _⟩
  simp at h
  simp [h] at hj

theorem reaches_pair_iff {r v x : Byte} : reaches [r, v] x ↔ x = r := by
  constructor
  · rintro ⟨r', vs, hl, j, hj, rfl⟩
    cases hl
    obtain rfl : j = 0 := by simpa using hj
    simp
  · rintro rfl
    exact ⟨_, _, rfl, 0, by simp, by simp⟩

/-! ## `INIT` and `POLL` -/

/-- A register read keeps what its transactions, of a pointer byte or none, and `pstep` keep. -/
theorem regrd_keeps {α : Type} (g : State → α)
    (ht : ∀ (s : State) a p n, List.length p ≤ 1 → g (transact a p n s) = g s)
    (hq : ∀ (s : State) q, g { s with pstep := q } = g s) (a : BusAddr) (r n : Byte) (s : State) :
    g (regrd a r n s) = g s := by
  have hhalf (t : State) : g (readHalf a n t) = g t := by
    unfold readHalf
    split
    · rfl
    · split
      · rfl
      · rw [ht _ _ _ _ (by simp), hq]
  rw [regrd, hhalf, pointerHalf]
  split <;> exact ht _ _ _ _ (by simp)

@[simp] theorem regrd_interface (a : BusAddr) (r n : Byte) (s : State) : (regrd a r n s).interface = s.interface :=
  regrd_keeps State.interface (by simp) (fun _ _ => rfl) a r n s

@[simp] theorem regrd_busy (a : BusAddr) (r n : Byte) (s : State) : (regrd a r n s).busy = s.busy :=
  regrd_keeps State.busy (by simp) (fun _ _ => rfl) a r n s

@[simp] theorem regrd_registerAt (a : BusAddr) (r n : Byte) (s : State) (k : Nat) (x : Byte) :
    (regrd a r n s).registerAt k x = s.registerAt k x :=
  regrd_keeps (fun t => t.registerAt k x)
    (fun _ _ _ n hl => transact_registerAt n (hl.trans (by decide)) fun _ _ h => not_reaches_of_length_le hl x h.2)
    (fun _ _ => rfl) a r n s

/-- What follows the read of `POLL` is about the sequencer's registers alone (43_identification.md R150, R151). -/
theorem pollEnd_keeps {α : Type} (g : State → α)
    (hg : ∀ s t : State, t.interface = s.interface → t.busy = s.busy → t.env = s.env → g t = g s) (s : State) :
    g (pollEnd s) = g s := by
  unfold pollEnd
  split
  · rfl
  · split <;> exact hg _ _ rfl rfl rfl

theorem poll_interface (s : State) : (poll s).interface = s.interface := by
  rw [poll, pollEnd_keeps State.interface fun _ _ h _ _ => h, regrd_interface]
  rfl

theorem poll_busy (s : State) : (poll s).busy = s.busy := by
  rw [poll, pollEnd_keeps State.busy fun _ _ _ h _ => h, regrd_busy]

theorem poll_registerAt (s : State) (k : Nat) (x : Byte) : (poll s).registerAt k x = s.registerAt k x := by
  rw [poll, pollEnd_keeps (fun t => t.registerAt k x) fun _ _ _ _ h => registerAt_of_env h k x, regrd_registerAt]
  rfl

/-- The register is none of those the sequencer writes (43_identification.md R143). -/
structure Unwritten (c : Params) (x : Byte) : Prop where
  init1 : x ≠ regInit1
  init2 : x ≠ regInit2
  redirect : x ≠ c.redirectReg

/-- `INIT` keeps what its one-byte register writes, its register read and the registers it sets keep. -/
theorem init_induct {P : State → Prop} {c : Params} (hc : ∀ s, P s → s.params = c)
    (hset : ∀ (s : State) i k q, P s → P { s with ident := i, pclass := k, pstep := q })
    (hwrite : ∀ s a r v, r = c.redirectReg ∨ r = regInit1 ∨ r = regInit2 → P s → P (regwr a r [v] s))
    (hread : ∀ s a r n, P s → P (regrd a r n s)) {s : State} (h : P s) : P (init s).2 := by
  have hstep (t : State) (q : PStep) (ht : P t) : P { t with pstep := q } := hset t t.ident t.pclass q ht
  have hident (t : State) (ht : P t) : P (afterIdent t).2 := by
    unfold afterIdent
    split_ifs
    · exact ht
    · exact hstep _ _ ht
    · exact hset _ _ _ _ ht
  have hhs2 (t : State) (ht : P t) : P (afterHs2 t).2 := by
    unfold afterHs2
    split_ifs
    · exact ht
    · exact hstep _ _ ht
    · exact hident _ (hread _ _ _ _ (hstep _ _ ht))
  have hhs1 (t : State) (ht : P t) : P (afterHs1 t).2 := by
    unfold afterHs1
    split_ifs
    · exact ht
    · exact hstep _ _ ht
    · exact hhs2 _ (hwrite _ _ _ _ (.inr (.inr rfl)) (hstep _ _ ht))
  have hredirect (t : State) (ht : P t) : P (afterRedirect t).2 := by
    unfold afterRedirect
    split_ifs
    · exact ht
    · exact hstep _ _ ht
    · exact hhs1 _ (hwrite _ _ _ _ (.inr (.inl rfl)) (hstep _ _ ht))
  exact hredirect _ (hwrite _ _ _ _ (.inl (congrArg (·.redirectReg) (hc s h))) (hstep _ _ h))

theorem init_interface_busy (s : State) : (init s).2.interface = s.interface ∧ (init s).2.busy = s.busy := by
  refine init_induct (P := fun t => t.interface = s.interface ∧ t.busy = s.busy) (c := s.params)
    (fun _ h => congrArg (·.1) h.1) (fun _ _ _ _ h => h) (fun t a r v _ h => ?_) (fun t a r n h => ?_) ⟨rfl, rfl⟩
  · exact ⟨(transact_interface ..).trans h.1, (transact_busy ..).trans h.2⟩
  · exact ⟨(regrd_interface ..).trans h.1, (regrd_busy ..).trans h.2⟩

theorem init_registerAt {s : State} {x : Byte} (hx : Unwritten s.params x) (k : Nat) :
    (init s).2.registerAt k x = s.registerAt k x := by
  refine (init_induct (P := fun t => t.params = s.params ∧ t.registerAt k x = s.registerAt k x) (c := s.params)
    (fun _ h => h.1) (fun _ _ _ _ h => h) (fun t a r v hr h => ⟨?_, ?_⟩) (fun t a r n h => ⟨?_, ?_⟩)
    ⟨rfl, rfl⟩).2
  · exact (transact_params ..).trans h.1
  · have hne : x ≠ r := by
      rcases hr with rfl | rfl | rfl
      · exact hx.redirect
      · exact hx.init1
      · exact hx.init2
    exact (transact_registerAt 0 (by simp [maxLen]) fun _ _ hp => hne (reaches_pair_iff.mp hp.2)).trans h.2
  · exact (congrArg (·.1) (regrd_interface a r n t)).trans h.1
  · exact (regrd_registerAt ..).trans h.2

/-! ## `TICK` -/

section
variable {α : Type} (g : State → α)
  (hset : ∀ s t : State, t.params = s.params → t.inbox = s.inbox → t.env = s.env → g t = g s)
  (hpoll : ∀ s, g (poll s) = g s)
include hset

theorem respondTick_keeps (s : State) : g (respondTick s) = g s := by
  unfold respondTick
  split
  · rfl
  · exact hset _ _ rfl rfl rfl

include hpoll

/-- A `TICK` keeps what `INIT` and `POLL` keep, if it is about the parameters, the presented bytes and the environment
(43_identification.md R141). -/
theorem tickBody_keeps (s : State) (hinit : g (init s).2 = g s) : g (tickBody s) = g s := by
  have hfail (t : State) : g (failTick t) = g t := (respondTick_keeps g hset _).trans (hset _ _ rfl rfl rfl)
  have hactivate (t : State) : g (activate t) = g t := hset _ _ rfl rfl rfl
  have hfinish (r : Bool × State) : g (finishInit r) = g r.2 := by
    unfold finishInit
    split_ifs
    · rfl
    · rw [respondTick_keeps g hset, hpoll, hactivate]
    · rw [respondTick_keeps g hset, hactivate]
    · exact hfail r.2
  unfold tickBody
  split
  · split
    · exact (respondTick_keeps g hset _).trans (hset _ _ rfl rfl rfl)
    · exact (hfinish _).trans hinit
  · rw [respondTick_keeps g hset, hpoll]

/-- From its acceptance on (10_state.md R20). -/
theorem tick_keeps (s : State) (hinit : g (init s.beginTick).2 = g s.beginTick) :
    g (s.whenIdle (tickBody s.beginTick)) = g s := by
  unfold State.whenIdle
  split
  · rfl
  · exact (tickBody_keeps g hset hpoll _ hinit).trans (hset _ _ rfl rfl rfl)

end

/-- What `TICK` and `INIT` leave (20_memory.md R42). -/
structure SequencerKeeps (k : Nat) (x : Byte) (s t : State) : Prop where
  params : t.params = s.params
  inbox : t.inbox = s.inbox
  register : Unwritten s.params x → t.registerAt k x = s.registerAt k x

theorem sequencerKeeps_init (k : Nat) (x : Byte) (s : State) : SequencerKeeps k x s (init s).2 where
  params := congrArg (·.1) (init_interface_busy s).1
  inbox := congrArg (·.2.1) (init_interface_busy s).1
  register := fun hx => init_registerAt hx k

theorem sequencerKeeps_tick (k : Nat) (x : Byte) (s : State) :
    SequencerKeeps k x s (s.whenIdle (tickBody s.beginTick)) where
  params := tick_keeps State.params (fun _ _ h _ _ => h) (fun s => congrArg (·.1) (poll_interface s)) s
    (sequencerKeeps_init k x _).params
  inbox := tick_keeps State.inbox (fun _ _ _ h _ => h) (fun s => congrArg (·.2.1) (poll_interface s)) s
    (sequencerKeeps_init k x _).inbox
  register := fun hx => tick_keeps (fun t => t.registerAt k x) (fun _ _ _ _ h => registerAt_of_env h k x)
    (fun s => poll_registerAt s k x) s ((sequencerKeeps_init k x _).register hx)

/-! ## The frame of the operations -/

/-- `INIT` and `POLL` run by `exec`, in the hang too. -/
theorem exec_init_cases {s t : State} (h : exec .init s = .next t) : t = s ∨ t = (init s).2 := by
  cases h
  split
  · exact .inl rfl
  · exact .inr rfl

theorem exec_poll_cases {s t : State} (h : exec .poll s = .next t) : t = s ∨ t = poll s := by
  cases h
  split
  · exact .inl rfl
  · exact .inr rfl

theorem exec_tick {s t : State} (h : exec .tick s = .next t) : t = s.whenIdle (tickBody s.beginTick) := by
  cases h; rfl

/-- Settles O57: each operation is its transactions and moves of the sequencer, and a transaction stores only what its
payload reaches. -/
theorem sequencerFrame : Obligations.SequencerFrame := by
  intro s t i k x h
  refine ⟨fun hi => ?_, fun hi => ?_, fun hi => ?_, fun hi => ?_, fun a r vs p hi hw hp hx => ?_⟩
  · suffices SequencerKeeps k x s t from
      ⟨this.params, this.inbox, fun h1 h2 h3 => this.register ⟨h1, h2, h3⟩⟩
    rcases hi with rfl | rfl
    · exact exec_tick h ▸ sequencerKeeps_tick k x s
    · rcases exec_init_cases h with rfl | rfl
      · exact ⟨rfl, rfl, fun _ => rfl⟩
      · exact sequencerKeeps_init k x s
  · rcases hi with rfl | ⟨a, r, n, rfl⟩
    · rcases exec_poll_cases h with rfl | rfl
      · rfl
      · exact poll_registerAt s k x
    · cases h
      exact regrd_registerAt a r n s k x
  · rcases hi with rfl | rfl | ⟨a, r, n, rfl⟩ | ⟨a, r, vs, rfl⟩
    · rcases exec_init_cases h with rfl | rfl
      · exact ⟨rfl, rfl⟩
      · exact init_interface_busy s
    · rcases exec_poll_cases h with rfl | rfl
      · exact ⟨rfl, rfl⟩
      · exact ⟨poll_interface s, poll_busy s⟩
    · cases h
      exact ⟨regrd_interface a r n s, regrd_busy a r n s⟩
    · cases h
      exact ⟨transact_interface a _ 0 s, transact_busy a _ 0 s⟩
  · obtain ⟨a, r, vs, rfl⟩ := hi
    cases h
    exact transact_pis a _ 0 s
  · subst hi
    cases h
    have hl : (r :: vs).length ≤ maxLen := by
      simp only [Instr.wf, decide_eq_true_eq] at hw
      exact hw.2
    exact transact_keeps_register 0 hl hp hx

end Sys2Proof.Machine

/-! A transaction takes no notice of the host command interface, so a register write or read is what `XACT` commands
do, but for acceptance and response (42_register_protocol.md R131, R132; 41_transaction.md R121). -/

namespace Sys2Proof.Machine

open Config

/-! ## The registers of the host command interface -/

/-- `s` with `busy` and the responses produced replaced (10_state.md R19, 30_encoding.md R60). -/
def State.withHost (s : State) (b : Bool) (rs : List (List Byte)) : State := { s with busy := b, responses := rs }

section
variable (b : Bool) (rs : List (List Byte)) (s : State)

@[simp] theorem State.withHost_hung : (s.withHost b rs).hung = s.hung := rfl
@[simp] theorem State.withHost_phase : (s.withHost b rs).phase = s.phase := rfl
@[simp] theorem State.withHost_wlen : (s.withHost b rs).wlen = s.wlen := rfl
@[simp] theorem State.withHost_stepBound : (s.withHost b rs).stepBound = s.stepBound := rfl
@[simp] theorem State.withHost_replyTo (k : StepKind) (d : Byte) :
    (s.withHost b rs).replyTo k d = s.replyTo k d := rfl
@[simp] theorem State.busWait_withHost (k : StepKind) (d : Byte) :
    (s.withHost b rs).busWait k d = (s.busWait k d).withHost b rs := rfl
@[simp] theorem State.raise_withHost (c : Result) : (s.withHost b rs).raise c = (s.raise c).withHost b rs := rfl

@[simp] theorem State.beginTransaction_withHost (a : BusAddr) (p : List Byte) (n : Byte) :
    (s.withHost b rs).beginTransaction a p n = (s.beginTransaction a p n).withHost b rs := by
  unfold State.beginTransaction
  split_ifs <;> rfl

/-- A waiting step does not touch them if its effect of `PASS` does not. -/
theorem waitingStep_withHost {k : StepKind} {d : Byte} {f : Byte → State → State}
    (hf : ∀ rx t, f rx (t.withHost b rs) = (f rx t).withHost b rs) :
    (s.withHost b rs).waitingStep k d f = (s.waitingStep k d f).withHost b rs := by
  cases hh : s.hung
  · cases hr : s.replyTo k d with
    | ready n st rx => cases hc : classifyStatus k st <;> simp [State.waitingStep, hh, hr, hc, hf]
    | _ => simp [State.waitingStep, hh, hr]
  · simp [waitingStep_hung, hh]

theorem releaseStep_withHost (k : StepKind) :
    (s.withHost b rs).releaseStep k = (s.releaseStep k).withHost b rs := by
  cases hh : s.hung
  · rw [releaseStep_eq k hh, releaseStep_eq k (s := s.withHost b rs) hh]
    rfl
  · simp [State.releaseStep, hh]

theorem busStart_withHost : busStart (s.withHost b rs) = (busStart s).withHost b rs :=
  waitingStep_withHost b rs s fun _ t => by
    simp only [State.withHost_phase]
    split <;> rfl

/-- The bus step of a phase neither reads nor writes them. -/
@[simp] theorem issue_withHost : issue (s.withHost b rs) = (issue s).withHost b rs := by
  cases hp : s.phase <;> simp only [issue, State.withHost_phase, hp]
  case wStart => exact busStart_withHost b rs s
  case wAddr => exact waitingStep_withHost b rs s fun _ _ => rfl
  case wData => exact waitingStep_withHost b rs s fun _ _ => rfl
  case rStart =>
    simp only [State.withHost_wlen, busStart_withHost, apply_ite (State.withHost · b rs)]
    exact if_congr Iff.rfl rfl (waitingStep_withHost b rs s fun _ _ => rfl)
  case rAddr => exact waitingStep_withHost b rs s fun _ _ => rfl
  case rData =>
    rw [apply_ite (State.withHost · b rs)]
    exact if_congr Iff.rfl (waitingStep_withHost b rs s fun _ _ => rfl)
      (waitingStep_withHost b rs s fun _ _ => rfl)
  case stopping => exact releaseStep_withHost b rs s .stop
  case rearming => exact releaseStep_withHost b rs s .rearm

@[simp] theorem engine_withHost (m : Nat) : engine m (s.withHost b rs) = (engine m s).withHost b rs := by
  induction m generalizing s with
  | zero => rfl
  | succ m ih =>
    simp only [engine, State.withHost_hung, State.withHost_phase, issue_withHost, ih]
    split <;> rfl

/-- A transaction neither reads nor writes them (41_transaction.md R121). -/
theorem transact_withHost (a : BusAddr) (p : List Byte) (n : Byte) :
    transact a p n (s.withHost b rs) = (transact a p n s).withHost b rs := by
  simp only [transact, State.withHost_hung, State.beginTransaction_withHost, State.withHost_stepBound,
    engine_withHost]
  split_ifs <;> rfl

/-- Acceptance and response write nothing else (10_state.md R20, 60_exceptions.md R175). -/
theorem respondXact_withHost : (respondXact s).withHost b rs = s.withHost b rs := by
  unfold respondXact
  split <;> rfl

/-- A transaction is what an `XACT` command does, whatever the host command interface holds. -/
theorem transact_eq_respondXact (a : BusAddr) (p : List Byte) (n : Byte) :
    transact a p n (s.withHost b rs) = (respondXact (transact a p n s.accept)).withHost b rs := by
  rw [respondXact_withHost, ← transact_withHost]
  rfl

end

/-! ## The expansions -/

/-- Settles O41: the transaction of `REGWR` is that of `XACT.W`, whose acceptance and response are outside it. -/
theorem regwrExpandsToXactW : Obligations.RegwrExpandsToXactW := by
  intro s a r vs _ hh
  have hs : State.Idle { s with busy := false } := ⟨rfl, hh⟩
  exact ⟨_, exec_xact_idle rfl hs, congrArg _ (transact_eq_respondXact s.busy s.responses _ a (r :: vs) 0)⟩

theorem State.halfRead_of_result_ne_ok {t : State} (h : t.result ≠ .ok) : t.halfRead = false := by
  simp [State.halfRead, h]

/-- In `split` mode a pointer write that hangs or is not `OK` is all of the read (42_register_protocol.md R132). -/
theorem regrd_split_ends {s : State} (a : BusAddr) (r n : Byte) (h : s.params.regReadMode = .split)
    (he : (transact a [r] 0 s).hung = true ∨ (transact a [r] 0 s).result ≠ .ok) :
    regrd a r n s = transact a [r] 0 s := by
  have hp : pointerHalf a r n s = transact a [r] 0 s := by simp [pointerHalf, h]
  rw [regrd, hp]
  cases hh : (transact a [r] 0 s).hung with
  | true => exact readHalf_hung a n hh
  | false =>
    have hr := State.halfRead_of_result_ne_ok (he.resolve_left (by rw [hh]; decide))
    rw [readHalf_eq a n hh, hr]
    rfl

/-- An `XACT` command that does not hang leaves an idle block (60_exceptions.md R175). -/
theorem respondXact_idle {s : State} (h : (respondXact s).hung = false) : (respondXact s).Idle := by
  cases hh : s.hung
  · rw [respondXact_of_not_hung hh] at h ⊢
    exact ⟨rfl, h⟩
  · rw [respondXact_hung hh, hh] at h
    cases h

/-- Settles O42: the halves of `REGRD` are the transactions of `XACT` commands, whose acceptance and response are
outside them. -/
theorem regrdExpandsByMode : Obligations.RegrdExpandsByMode := by
  intro s a r n _ hh
  have hs : State.Idle { s with busy := false } := ⟨rfl, hh⟩
  have hpointer : transact a [r] 0 s = _ :=
    transact_eq_respondXact s.busy s.responses { s with busy := false } a [r] 0
  refine ⟨fun hm => ⟨_, exec_xact_idle rfl hs, congrArg Host.Outcome.next ?_⟩,
    fun hm => ⟨_, exec_xact_idle rfl hs, fun he => congrArg Host.Outcome.next ?_, fun hu hr => ?_⟩⟩
  · rw [regrd_combined a r n hm]
    exact transact_eq_respondXact s.busy s.responses _ a [r] n
  · rw [regrd_split_ends a r n hm (by rw [hpointer]; exact he)]
    exact hpointer
  · obtain ⟨hb, _⟩ := respondXact_idle hu
    refine ⟨_, exec_xact_idle rfl ⟨hb, hu⟩, congrArg Host.Outcome.next ?_⟩
    rw [regrd_split a r n hm (by rw [hpointer]; exact hu) (by rw [hpointer]; exact hr), transact_pstep, hpointer]
    exact transact_eq_respondXact s.busy s.responses { respondXact _ with pstep := s.pstep.readHalf } a [] n

end Sys2Proof.Machine

/-! Register writes and reads whose steps all pass (42_register_protocol.md R131, R132). -/

namespace Sys2Proof.Machine

open Config

/-! ## A transaction whose steps all pass -/

/-- The transaction of `n` bytes with the steps `l` has led from `s` to its end `t`, every step having passed. -/
structure Passed (n : Byte) (l : List PassingStep) (rest : List Override) (s t : State) : Prop where
  hung : t.hung = false
  phase : t.phase = .idle
  result : t.result = .ok
  rcount : t.rcount = n
  received : t.received = receivedBytes l
  trace : t.trace = s.trace ++ passingTokens l ++ [stopToken]
  script : t.env.script = rest

/-- What the host is told of the transaction of an `XACT` command holds of the transaction in a busy block too
(41_transaction.md R121). -/
theorem transact_passed {s : State} {i : Instr} {a : BusAddr} {p : List Byte} {n : Byte} {l : List PassingStep}
    {rest : List Override} (ho : xactOperands i = some (a, p, n)) (hw : i.wf = true) (hi : ∀ b, i ≠ .xactInv b)
    (hh : s.hung = false) (h : s.LetsPass (transactionSteps a p n.toNat) l rest) :
    Passed n l rest s (transact a p n s) := by
  have hs : State.Idle { s with busy := false } := ⟨rfl, hh⟩
  have e : transact a p n s = _ := transact_eq_respondXact s.busy s.responses { s with busy := false } a p n
  obtain ⟨t, ht, hres, hcount, hrec, htrace, _, ⟨_, hhung⟩, _, _, _, _, hscript, _⟩ :=
    passingTransactionCompletes { s with busy := false } i a p n l rest ho hw (hi a) hs h
  obtain rfl := Host.Outcome.next.inj ((exec_xact_idle ho hs).symm.trans ht)
  have hhung' : (transact a p n s).hung = false := by rw [e]; exact hhung
  have hend := transact_completed (xactOperands_nonempty ho hw hi) (xactOperands_length ho hw) hh hhung'
  refine ⟨hhung', hend.1, ?_, ?_, ?_, ?_, ?_⟩ <;> rw [e] <;> assumption

/-- Settles O43: its transaction passes all its steps. -/
theorem passingRegisterWriteCompletes : Obligations.PassingRegisterWriteCompletes := by
  intro s a r vs l rest hw hh hpass
  have hsteps : transactionSteps a (r :: vs) (0 : Byte).toNat = writeSteps a (r :: vs) := List.append_nil _
  have hw' : (Instr.xactW a (r :: vs)).wf = true := by
    simp only [Instr.wf, decide_eq_true_eq, List.length_cons] at hw ⊢
    omega
  obtain ⟨hhung, hphase, hres, hcount, _, htrace, hscript⟩ :=
    transact_passed rfl hw' (by simp) hh (hsteps ▸ hpass)
  exact ⟨_, rfl, hres, hcount, hphase, htrace, hscript, transact_pis .., transact_interface ..,
    transact_busy .., hhung⟩

/-! ## The two halves of a register read -/

/-- Steps that the environment lets pass, taken in two parts. -/
theorem letsPass_append {s : State} {k k' : List (StepKind × Byte)} {l : List PassingStep} {rest : List Override}
    (h : s.LetsPass (k ++ k') l rest) :
    ∃ l₁ l₂, l = l₁ ++ l₂ ∧ l₁.length = k.length ∧ s.LetsPass k l₁ (passingScript l₂ ++ rest) ∧
      ∀ t : State, t.params = s.params → t.env.script = passingScript l₂ ++ rest → t.LetsPass k' l₂ rest := by
  obtain ⟨hsteps, hall, hscript⟩ := h
  obtain ⟨l₁, l₂, rfl, rfl, rfl⟩ := List.map_eq_append_iff.mp hsteps
  obtain ⟨hall₁, hall₂⟩ := List.forall_mem_append.mp hall
  refine ⟨l₁, l₂, rfl, by simp, ⟨rfl, hall₁, ?_⟩, fun t hp ht => ⟨rfl, hp.symm ▸ hall₂, ht⟩⟩
  rw [hscript, passingScript, List.map_append, List.append_assoc]
  rfl

theorem receivedBytes_append (l l' : List PassingStep) :
    receivedBytes (l ++ l') = receivedBytes l ++ receivedBytes l' := by
  simp [receivedBytes]

/-- In `combined` mode the steps of a register read are those of one transaction. -/
theorem transactionSteps_read (a : BusAddr) (r : Byte) {n : Byte} (hn : n ≠ 0) :
    transactionSteps a [r] n.toNat = readRegisterSteps a r n := by
  have hn' : n.toNat ≠ 0 := toNat_ne_zero.mp hn
  simp [transactionSteps, readRegisterSteps, hn']

/-- A read phase alone is the second transaction of a `split` read. -/
theorem transactionSteps_readOnly (a : BusAddr) {n : Byte} (hn : n ≠ 0) :
    transactionSteps a [] n.toNat = readSteps a n.toNat := by
  have hn' : n.toNat ≠ 0 := toNat_ne_zero.mp hn
  simp [transactionSteps, hn']

/-- Settles O44: one transaction passes all the steps in `combined` mode; in `split` mode the first passes the three
steps of the pointer write, which receive nothing, and the second the others. -/
theorem passingRegisterReadCompletes : Obligations.PassingRegisterReadCompletes := by
  intro s a r n l rest hw hh hpass
  have hn : n ≠ 0 := by simpa [Instr.wf] using hw
  have hinterface := regrd_interface a r n s
  have hbusy := regrd_busy a r n s
  refine ⟨_, rfl, ?_⟩
  cases hm : s.params.regReadMode
  case combined =>
    rw [regrd_combined a r n hm] at hinterface hbusy ⊢
    rw [← transactionSteps_read a r hn] at hpass
    obtain ⟨hhung, hphase, hres, hcount, hrec, htrace, hscript⟩ :=
      transact_passed (i := .xactWr a [r] n) rfl (by simpa [Instr.wf, maxLen] using hn) (by simp) hh hpass
    exact ⟨hres, hcount, hrec, hphase, hscript, hinterface, hbusy, hhung, fun _ => ⟨transact_pis .., htrace⟩, nofun⟩
  case split =>
    obtain ⟨l₁, l₂, rfl, hlen, hfirst, hsecond⟩ := letsPass_append hpass
    have hwrite := transact_passed (i := .xactW a [r]) rfl (by simp [Instr.wf, maxLen]) (by simp) hh hfirst
    rw [regrd_split a r n hm hwrite.hung hwrite.result] at hinterface hbusy ⊢
    have hread := transact_passed (i := .xactR a n)
      (s := { transact a [r] 0 s with pstep := (transact a [r] 0 s).pstep.readHalf }) rfl hw (by simp) hwrite.hung
      (transactionSteps_readOnly a hn ▸ hsecond _ (transact_params a [r] 0 s) hwrite.script)
    have hnone : receivedBytes l₁ = [] := hwrite.received.symm.trans (received_eq_nil hwrite.rcount)
    refine ⟨hread.result, hread.rcount, ?_, hread.phase, hread.script, hinterface, hbusy, hread.hung, nofun,
      fun _ => ⟨?_, ?_⟩⟩
    · rw [hread.received, receivedBytes_append, hnone, List.nil_append]
    · rw [transact_pstep, transact_pstep]
    · have hlen3 : l₁.length = 3 := hlen
      rw [hread.trace, List.take_left' hlen3, List.drop_left' hlen3]
      exact congrArg (· ++ passingTokens l₂ ++ [stopToken]) hwrite.trace

end Sys2Proof.Machine

/-! `INIT` is its operations one after another, ended by the first failure (43_identification.md R143 to R147), and what
it leaves of the sequencer's registers. -/

namespace Sys2Proof.Machine

open Config

/-! ## The operations of `INIT` in a row -/

/-- The state an instruction leaves: every instruction answers one (log entry 21). -/
def performed (i : Instr) (s : State) : State :=
  match exec i s with
  | .next t => t
  | .fault _ => s
  | .refused _ => s

theorem exec_eq_performed (i : Instr) (s : State) : exec i s = .next (performed i s) := by cases i <;> rfl

/-- `INIT` judges the operation that has ended in `s`: it goes on as `next` with one of the results `goesOn`, and fails
with another (43_identification.md R143, R147). -/
def judged (goesOn : List Result) (next : State → Bool × State) (s : State) : Bool × State :=
  if s.hung then (false, s) else if s.result ∈ goesOn then next s else initFails s

/-- The identity is taken from the bytes received (43_identification.md R146). -/
def identityTaken (s : State) : State :=
  { s with
    ident := identOf s.received
    pclass := classifyIdent s.params (identOf s.received)
    pstep := .idle }

/-- The state an operation of `INIT` leaves, begun in `s`. -/
def afterPiece (e : Piece) (s : State) : State := performed e.instr { s with pstep := e.pstep }

/-- `INIT` from `s` with the given operations still to come. -/
def initFrom : List Piece → State → Bool × State
  | [], s => (true, identityTaken s)
  | e :: more, s => judged e.goesOn (initFrom more) (afterPiece e s)

section
variable {g : List Result} {f : State → Bool × State} {s : State}

theorem judged_of_hung (h : s.hung = true) : judged g f s = (false, s) := if_pos h

theorem judged_of_mem (hh : s.hung = false) (hr : s.result ∈ g) : judged g f s = f s := by
  simp [judged, hh, hr]

theorem judged_of_not_mem (hh : s.hung = false) (hr : s.result ∉ g) : judged g f s = initFails s := by
  simp [judged, hh, hr]

end

section
variable {next : State → Bool × State} {s : State} {x : Bool × State}

/-- The judgement of a handshake write or the identity read, as the model writes it. -/
theorem judged_ok (h : x = next s) :
    (if s.hung then (false, s) else if s.result ≠ .ok then initFails s else x) = judged [.ok] next s := by
  simp only [judged, h, List.mem_singleton, ne_eq, ite_not]

/-- The judgement of the redirect write, as the model writes it. -/
theorem judged_redirect (h : x = next s) :
    (if s.hung then (false, s) else if s.result ≠ .ok ∧ s.result ≠ .addressNack then initFails s else x) =
      judged [.ok, .addressNack] next s := by
  simp only [judged, h, List.mem_cons, List.not_mem_nil, or_false, ne_eq, ← not_or, ite_not]

end

theorem afterIdent_eq (s : State) : afterIdent s = judged [.ok] (initFrom []) s := judged_ok rfl

section
variable {c : Params} {s : State}

theorem afterHs2_eq (h : s.params = c) : afterHs2 s = judged [.ok] (initFrom ((initPieces c).drop 3)) s := by
  subst h
  exact judged_ok (afterIdent_eq _)

theorem afterHs1_eq (h : s.params = c) : afterHs1 s = judged [.ok] (initFrom ((initPieces c).drop 2)) s := by
  subst h
  exact judged_ok (afterHs2_eq (transact_params _ _ _ { s with pstep := .hs2 }))

theorem afterRedirect_eq (h : s.params = c) :
    afterRedirect s = judged [.ok, .addressNack] (initFrom ((initPieces c).drop 1)) s := by
  subst h
  exact judged_redirect (afterHs1_eq (transact_params _ _ _ { s with pstep := .hs1 }))

end

/-- `INIT` is the operations of its expansion in a row. -/
theorem init_eq_initFrom (s : State) : init s = initFrom (initPieces s.params) s :=
  afterRedirect_eq (transact_params _ _ _ { s with pstep := .redirect })

/-- What `State.InitRuns` says of operations in a row is what they do. -/
theorem initRuns_initFrom (l : List Piece) (s : State) : s.InitRuns l (initFrom l s).1 (initFrom l s).2 := by
  induction l generalizing s with
  | nil => exact ⟨rfl, rfl⟩
  | cons e more ih =>
    rw [initFrom, State.InitRuns_cons (u := afterPiece e s) (exec_eq_performed ..)]
    refine ⟨fun hh => ?_, fun hh hr => ?_, fun hh hr => ?_⟩
    · rw [judged_of_hung hh]
      exact ⟨rfl, rfl⟩
    · rw [judged_of_not_mem hh hr]
      exact ⟨rfl, rfl⟩
    · rw [judged_of_mem hh hr]
      exact ih _

/-! ## What `INIT` leaves of the sequencer's registers -/

/-- The registers of the sequencer that `INIT` leaves (43_identification.md R147). -/
def State.session (s : State) : PState × Nat × Vector Byte 6 × Bool × Bool :=
  (s.pstate, s.settle, s.sample, s.sampleValid, s.calibReset)

/-- What the identity is judged by and what it is (43_identification.md R146). -/
def State.identity (s : State) : Params × IdentCode × PClass := (s.params, s.ident, s.pclass)

@[simp] theorem transact_session (a : BusAddr) (p : List Byte) (n : Byte) (s : State) :
    (transact a p n s).session = s.session := by
  simp [State.session]

@[simp] theorem transact_identity (a : BusAddr) (p : List Byte) (n : Byte) (s : State) :
    (transact a p n s).identity = s.identity := by
  simp [State.identity]

@[simp] theorem regrd_session (a : BusAddr) (r n : Byte) (s : State) : (regrd a r n s).session = s.session :=
  regrd_keeps State.session (by simp) (fun _ _ => rfl) a r n s

@[simp] theorem regrd_identity (a : BusAddr) (r n : Byte) (s : State) : (regrd a r n s).identity = s.identity :=
  regrd_keeps State.identity (by simp) (fun _ _ => rfl) a r n s

@[simp] theorem regrd_params (a : BusAddr) (r n : Byte) (s : State) : (regrd a r n s).params = s.params :=
  congrArg (·.1) (regrd_identity a r n s)

theorem init_session (s : State) : (init s).2.session = s.session :=
  (init_induct (P := fun t => t.params = s.params ∧ t.session = s.session) (c := s.params) (fun _ h => h.1)
    (fun _ _ _ _ h => h) (fun _ _ _ _ _ h => ⟨(transact_params ..).trans h.1, (transact_session ..).trans h.2⟩)
    (fun _ _ _ _ h => ⟨(regrd_params ..).trans h.1, (regrd_session ..).trans h.2⟩) ⟨rfl, rfl⟩).2

theorem init_params (s : State) : (init s).2.params = s.params := congrArg (·.1) (init_interface_busy s).1

/-- A register read that ends `OK` has received all its bytes (42_register_protocol.md R132). -/
theorem regrd_rcount_of_ok {a : BusAddr} {r n : Byte} {s : State} (hn : n ≠ 0) (hh : s.hung = false)
    (ht : (regrd a r n s).hung = false) (hr : (regrd a r n s).result = .ok) : (regrd a r n s).rcount = n := by
  cases hm : s.params.regReadMode
  case combined =>
    rw [regrd_combined a r n hm] at ht hr ⊢
    exact (transact_completed (by simp) (by simp [maxLen]) hh ht).2.2 hr
  case split =>
    by_cases he : (transact a [r] 0 s).hung = true ∨ (transact a [r] 0 s).result ≠ .ok
    · rw [regrd_split_ends a r n hm he] at ht hr
      rcases he with he | he
      · exact absurd (ht.symm.trans he) (by simp)
      · exact absurd hr he
    · obtain ⟨hh1, hr1⟩ := not_or.mp he
      rw [Bool.not_eq_true] at hh1
      rw [regrd_split a r n hm hh1 (not_not.mp hr1)] at ht hr ⊢
      generalize transact a [r] 0 s = u at hh1 ht hr ⊢
      exact (transact_completed (s := { u with pstep := u.pstep.readHalf }) (fun e => hn e.2) (Nat.zero_le _) hh1
        ht).2.2 hr

/-! ## How `INIT` can end -/

/-- What `INIT` from `s` returns and leaves: it hangs, it fails with `ident` and `pclass` as they were, or it takes the
identity of the two bytes read (43_identification.md R146, R147). -/
inductive InitOutcome (s : State) : Bool × State → Prop
  | hangs {u : State} (hung : u.hung = true) : InitOutcome s (false, u)
  | fails {u : State} (hung : u.hung = false) (result : u.result ≠ .ok) (identity : u.identity = s.identity) :
      InitOutcome s (initFails u)
  | identifies {u : State} (hung : u.hung = false) (result : u.result = .ok) (rcount : u.rcount = identLen)
      (identity : u.identity = s.identity) : InitOutcome s (true, identityTaken u)

theorem initOutcome_judged {s u : State} {g : List Result} {f : State → Bool × State} (hg : .ok ∈ g)
    (hk : u.identity = s.identity) (hf : u.hung = false → u.result ∈ g → InitOutcome s (f u)) :
    InitOutcome s (judged g f u) := by
  cases hh : u.hung
  case true =>
    rw [judged_of_hung hh]
    exact .hangs hh
  case false =>
    by_cases hr : u.result ∈ g
    · rw [judged_of_mem hh hr]
      exact hf hh hr
    · rw [judged_of_not_mem hh hr]
      exact .fails hh (fun e => hr (e ▸ hg)) hk


/-- An operation of `INIT` leaves the identity as it is (42_register_protocol.md R133). -/
theorem afterPiece_identity {c : Params} {e : Piece} (h : e ∈ initPieces c) (s : State) :
    (afterPiece e s).identity = s.identity := by
  simp only [initPieces, List.mem_cons, List.not_mem_nil, or_false] at h
  rcases h with rfl | rfl | rfl | rfl
  · exact transact_identity _ _ _ { s with pstep := .redirect }
  · exact transact_identity _ _ _ { s with pstep := .hs1 }
  · exact transact_identity _ _ _ { s with pstep := .hs2 }
  · exact regrd_identity _ _ _ { s with pstep := .ident }

/-- One more operation at the front. -/
theorem initOutcome_cons {c : Params} {s u : State} {e : Piece} {more : List Piece} (he : e ∈ initPieces c)
    (hk : u.identity = s.identity)
    (hf : ∀ v, v.identity = s.identity → v.hung = false → InitOutcome s (initFrom more v)) :
    InitOutcome s (initFrom (e :: more) u) := by
  have hid := (afterPiece_identity he u).trans hk
  have hok : .ok ∈ e.goesOn := by
    simp only [initPieces, List.mem_cons, List.not_mem_nil, or_false] at he
    rcases he with rfl | rfl | rfl | rfl <;> simp
  exact initOutcome_judged hok hid fun hh _ => hf _ hid hh

/-- The identity read, the last operation, has received two bytes. -/
theorem initOutcome_ident {s u : State} (hk : u.identity = s.identity) (hh : u.hung = false) :
    InitOutcome s (initFrom ((initPieces s.params).drop 3) u) := by
  have hid := (regrd_identity s.params.addrPrimary 0xFE 2 { u with pstep := .ident }).trans hk
  refine initOutcome_judged (List.mem_singleton_self _) hid fun ht hr => ?_
  have hok := List.mem_singleton.mp hr
  exact .identifies ht hok (regrd_rcount_of_ok (s := { u with pstep := .ident }) (by decide) hh ht hok) hid

theorem initOutcome_init (s : State) : InitOutcome s (init s) := by
  rw [init_eq_initFrom]
  refine initOutcome_cons (c := s.params) (by simp [initPieces]) rfl fun t ht _ => ?_
  refine initOutcome_cons (c := s.params) (by simp [initPieces]) ht fun u hu _ => ?_
  exact initOutcome_cons (c := s.params) (by simp [initPieces]) hu fun v hv hh => initOutcome_ident hv hh

theorem exec_init {s : State} (hh : s.hung = false) : exec .init s = .next (init s).2 := by
  simp [exec, execInit, hh]

/-- Settles O53: `INIT` is its operations in a row, and its three outcomes are told apart by `RESULT`. -/
theorem initIdentifiesOrLeavesIdentity : Obligations.InitIdentifiesOrLeavesIdentity := by
  refine ⟨fun p => rfl, fun s t hh h => ?_⟩
  obtain rfl := Host.Outcome.next.inj ((exec_init hh).symm.trans h)
  have hruns := initRuns_initFrom (initPieces s.params) s
  rw [← init_eq_initFrom] at hruns
  refine ⟨hruns, fun ht => ?_⟩
  have hsession := init_session s
  have hout := initOutcome_init s
  generalize init s = r at ht hsession hout ⊢
  cases hout with
  | hangs hung => exact absurd (ht.symm.trans hung) (by simp)
  | fails _ hres hid =>
    obtain ⟨_, hident, hclass⟩ : _ ∧ _ ∧ _ := by simpa only [State.identity, Prod.mk.injEq] using hid
    refine ⟨rfl, hsession, ?_, fun hr => absurd hr hres, fun _ => ⟨hident, hclass⟩⟩
    exact ⟨fun h => absurd h (by simp [initFails]), fun h => absurd h hres⟩
  | identifies _ hres hcount hid =>
    have hparams : _ = s.params := congrArg (·.1) hid
    exact ⟨rfl, hsession, ⟨fun _ => hres, fun _ => rfl⟩,
      fun _ => ⟨hcount, rfl, congrArg (classifyIdent · _) hparams⟩, fun hr => absurd hres hr⟩

end Sys2Proof.Machine

/-! `POLL` is its register read and what is made of its result (43_identification.md R150, R151); the classification of
the identity code (R153). -/

namespace Sys2Proof.Machine

open Config

/-- Settles O58: the codes of a valid binding are distinct, so that each is met by its own test. -/
theorem classifyByIdentityCode : Obligations.ClassifyByIdentityCode := by
  refine ⟨fun p id => ?_, rfl, rfl, rfl, rfl, rfl⟩
  obtain ⟨hnc, hnm, hcm⟩ := p.idDistinct
  refine ⟨fun h => ?_, fun h => ?_, fun h => ?_, fun hn hc hm => ?_, classifyIdent_ne_none p id⟩
  · simp [classifyIdent, h]
  · simp [classifyIdent, h, hnc.symm]
  · simp [classifyIdent, h, hnm.symm, hcm.symm]
  · simp [classifyIdent, hn, hc, hm]

/-! ## The register read of `POLL` -/

/-- The report read (43_identification.md R150). -/
def reportRead (s : State) : State := regrd s.params.addrPrimary regReport sampleLen { s with pstep := .poll }

/-- The sample is taken from the bytes received (43_identification.md R150). -/
def sampleTaken (s : State) : State :=
  { s with pstep := .idle, sample := loadBuffer s.sample s.received, sampleValid := true }

theorem exec_reportRead (s : State) :
    exec (.regrd s.params.addrPrimary 0x00 6) { s with pstep := .poll } = .next (reportRead s) := rfl

theorem exec_poll {s : State} (hh : s.hung = false) : exec .poll s = .next (poll s) := by
  simp [exec, execPoll, hh]

@[simp] theorem reportRead_params (s : State) : (reportRead s).params = s.params :=
  regrd_params _ _ _ { s with pstep := .poll }

@[simp] theorem reportRead_session (s : State) : (reportRead s).session = s.session :=
  regrd_session _ _ _ { s with pstep := .poll }

@[simp] theorem reportRead_identity (s : State) : (reportRead s).identity = s.identity :=
  regrd_identity _ _ _ { s with pstep := .poll }

@[simp] theorem pollEnd_hung_eq (s : State) : (pollEnd s).hung = s.hung := by
  unfold pollEnd; split_ifs <;> rfl

@[simp] theorem pollEnd_result (s : State) : (pollEnd s).result = s.result := by
  unfold pollEnd; split_ifs <;> rfl

@[simp] theorem poll_hung (s : State) : (poll s).hung = (reportRead s).hung := pollEnd_hung_eq (reportRead s)

@[simp] theorem poll_result (s : State) : (poll s).result = (reportRead s).result := pollEnd_result (reportRead s)

section
variable {s : State}

theorem pollEnd_of_ok (hh : s.hung = false) (hr : s.result = .ok) : pollEnd s = sampleTaken s := by
  rw [pollEnd, if_neg (by simp [hh]), if_pos hr]
  rfl

theorem pollEnd_of_failed (hh : s.hung = false) (hr : s.result ≠ .ok) :
    pollEnd s = State.dropToUninitialized { s with pstep := .idle } := by
  rw [pollEnd, if_neg (by simp [hh]), if_neg hr]

/-- A report read that ends `OK` delivers the sample. -/
theorem poll_of_ok (hh : (reportRead s).hung = false) (hr : (reportRead s).result = .ok) :
    poll s = sampleTaken (reportRead s) := pollEnd_of_ok hh hr

/-- Any other drops the sequencer to `Uninitialized` (43_identification.md R151). -/
theorem poll_of_failed (hh : (reportRead s).hung = false) (hr : (reportRead s).result ≠ .ok) :
    poll s = State.dropToUninitialized { reportRead s with pstep := .idle } := pollEnd_of_failed hh hr

/-- The bytes stored into a buffer that they fill. -/
theorem loadBuffer_full {n : Nat} (old : Vector Byte n) {bs : List Byte} (h : bs.length = n) :
    (loadBuffer old bs).toList = bs := by
  subst h
  exact (List.take_of_length_le (by simp)).symm.trans (loadBuffer_take old bs le_rfl)

/-- A report read that ends `OK` has received the six bytes of the sample. -/
theorem sampleTaken_sample (hs : s.hung = false) (hh : (reportRead s).hung = false) (hr : (reportRead s).result = .ok) :
    (sampleTaken (reportRead s)).sample.toList = (reportRead s).received := by
  have hcount : (reportRead s).rcount = sampleLen :=
    regrd_rcount_of_ok (s := { s with pstep := .poll }) (by decide) hs hh hr
  exact loadBuffer_full _ (by rw [received_length, hcount]; rfl)

end

/-- Settles O51: a `POLL` is its report read, and one that is not `OK` is followed by the drop alone. -/
theorem failedPollDropsToUninitialized : Obligations.FailedPollDropsToUninitialized := by
  intro s t hs h hh hr
  obtain rfl := Host.Outcome.next.inj ((exec_poll hs).symm.trans h)
  rw [poll_hung] at hh
  rw [poll_result] at hr
  refine ⟨_, exec_reportRead s, ?_⟩
  rw [poll_of_failed hh hr, ← reportRead_params s]
  rfl

end Sys2Proof.Machine

/-! `TICK` by the outcomes of `INIT` and `POLL` (43_identification.md R141, R142, R147 to R154). -/

namespace Sys2Proof.Machine

open Config

/-! ## The end of a `TICK` -/

section
variable {s : State}

theorem respondTick_of_not_hung (hh : s.hung = false) : respondTick s = s.respond s.tickResponse := by
  simp [respondTick, hh]

@[simp] theorem respondTick_hung_eq (s : State) : (respondTick s).hung = s.hung := by
  unfold respondTick; split <;> rfl

/-- The response while the sequencer is `Uninitialized` and no flag is raised (30_encoding.md R66). -/
theorem tickResponse_uninitialized (hp : s.pstate = .uninitialized) (hc : s.pclass = .none) (hi : s.ident = 0)
    (hv : s.sampleValid = false) (hr : s.calibReset = false) : s.tickResponse = [0x00, 0x00, 0x00] := by
  simp only [State.tickResponse, State.tickByte0, hp, hc, hi, hv, hr]
  rfl

end

/-- A `TICK` ends in the hang or with its response (43_identification.md R141). -/
theorem tickBody_hangs_or_responds (s : State) : (tickBody s).hung = true ∨ ∃ u, tickBody s = respondTick u := by
  unfold tickBody finishInit failTick
  split
  · split_ifs
    · exact .inr ⟨_, rfl⟩
    · exact .inl ‹_›
    all_goals exact .inr ⟨_, rfl⟩
  · exact .inr ⟨_, rfl⟩

/-- A `TICK` that does not hang leaves an idle block (60_exceptions.md R175). -/
theorem tick_idle {s t : State} (hs : s.Idle) (ht : exec .tick s = .next t) (hh : t.hung = false) : t.Idle := by
  obtain rfl := Host.Outcome.next.inj ((exec_tick_idle hs).symm.trans ht)
  obtain ⟨u, hu⟩ := (tickBody_hangs_or_responds s.beginTick).resolve_left (by simp [hh])
  refine ⟨?_, hh⟩
  rw [hu, respondTick_hung_eq] at hh
  rw [hu, respondTick_of_not_hung hh]
  rfl

/-! ## The branches of a `TICK` -/

/-- `settle` is set (43_identification.md R142, R147). -/
def State.withSettle (s : State) (n : Nat) : State := { s with settle := n }

section
variable {s : State}

theorem respondTick_withSettle (n : Nat) (hh : s.hung = false) :
    respondTick (s.withSettle n) = (s.withSettle n).respond (s.withSettle n).tickResponse :=
  respondTick_of_not_hung hh

theorem exec_tick_settling (hs : s.Idle) (hp : s.pstate = .uninitialized) (h : 0 < s.settle) :
    exec .tick s = .next (respondTick (s.beginTick.withSettle (s.settle - 1))) := by
  rw [exec_tick_idle hs]
  simp [tickBody, hp, h, State.withSettle]

theorem exec_tick_init (hs : s.Idle) (hp : s.pstate = .uninitialized) (h : s.settle = 0) :
    exec .tick s = .next (finishInit (init s.beginTick)) := by
  rw [exec_tick_idle hs]
  simp [tickBody, hp, h]

theorem exec_tick_active (hs : s.Idle) (hp : s.pstate = .active) :
    exec .tick s = .next (respondTick (poll s.beginTick)) := by
  rw [exec_tick_idle hs]
  simp [tickBody, hp]

/-- A failed `INIT` ends the `TICK` (43_identification.md R147). -/
theorem finishInit_false {r : Bool × State} (hh : r.2.hung = false) (h : r.1 = false) :
    finishInit r = respondTick (r.2.withSettle r.2.params.settleTicks) := by
  simp [finishInit, hh, h, failTick, State.withSettle]

/-- One that succeeds is followed by `POLL` in the same `TICK` (43_identification.md R148, R149). -/
theorem finishInit_true {r : Bool × State} (hh : r.2.hung = false) (h : r.1 = true)
    (hf : r.2.params.fallthrough = true) : finishInit r = respondTick (poll (activate r.2)) := by
  simp [finishInit, hh, h, hf]

/-- A `TICK` does not go on from a hang (60_exceptions.md R183). -/
theorem finishInit_hung {r : Bool × State} (hh : r.2.hung = true) : finishInit r = r.2 := by
  simp [finishInit, hh]

end

/-- Settles O47: the branch of R142 changes `settle` alone between the start of the `TICK` and its response. -/
theorem settleTickOnlyCountsDown : Obligations.SettleTickOnlyCountsDown := by
  intro s hs hp hsettle hc hi
  refine ⟨_, exec_tick_settling hs hp hsettle, ?_⟩
  have hr := tickResponse_uninitialized (s := s.beginTick.withSettle (s.settle - 1)) hp hc hi rfl rfl
  rw [respondTick_withSettle _ (s := s.beginTick) hs.2, hr]
  obtain ⟨hb, _⟩ := hs
  simp [State.respond, State.beginTick, State.accept, State.invalidateSample, State.withSettle, hb]

/-! ## The rows of 43_identification.md R154 -/

/-- A `TICK` keeps the invariant. -/
theorem inv_tick {s t : State} (h : Inv s) (hs : s.Idle) (ht : exec .tick s = .next t) : Inv t :=
  h.command hs (bs := [0x80]) (rest := []) rfl ht

/-- A `POLL` of `u` that ends `OK` delivers a sample and leaves the rest of the sequencer
(43_identification.md R150). -/
theorem poll_row_ok {u : State} (hh : (poll u).hung = false) (hr : (poll u).result = .ok) :
    (poll u).pstate = u.pstate ∧ (poll u).settle = u.settle ∧ (poll u).calibReset = u.calibReset ∧
      (poll u).sampleValid = true ∧ (poll u).ident = u.ident ∧ (poll u).pclass = u.pclass := by
  rw [poll_hung] at hh
  rw [poll_result] at hr
  obtain ⟨hpstate, hsettle, _, _, hcalib⟩ : _ ∧ _ ∧ _ ∧ _ ∧ _ := by
    simpa only [State.session, Prod.mk.injEq] using reportRead_session u
  obtain ⟨_, hident, hclass⟩ : _ ∧ _ ∧ _ := by simpa only [State.identity, Prod.mk.injEq] using reportRead_identity u
  rw [poll_of_ok hh hr]
  exact ⟨hpstate, hsettle, hcalib, rfl, hident, hclass⟩

/-- Any other drops it (43_identification.md R151). -/
theorem poll_row_failed {u : State} (hh : (poll u).hung = false) (hr : (poll u).result ≠ .ok) :
    (poll u).pstate = .uninitialized ∧ (poll u).settle = u.params.settleTicks ∧ (poll u).calibReset = true ∧
      (poll u).sampleValid = false := by
  rw [poll_hung] at hh
  rw [poll_result] at hr
  rw [poll_of_failed hh hr]
  exact ⟨rfl, congrArg (·.settleTicks) (reportRead_params u), rfl, rfl⟩

section
variable {s t : State}

/-- The row of `settle > 0`. -/
theorem tick_row_settling (hs : s.Idle) (ht : exec .tick s = .next t) (hp : s.pstate = .uninitialized)
    (hsettle : 0 < s.settle) : t.pstate = .uninitialized ∧ t.settle = s.settle - 1 ∧ t.calibReset = false ∧
      t.sampleValid = false ∧ t.trace = s.trace := by
  obtain rfl := Host.Outcome.next.inj ((exec_tick_settling hs hp hsettle).symm.trans ht)
  rw [respondTick_withSettle _ (s := s.beginTick) hs.2]
  exact ⟨hp, rfl, rfl, rfl, rfl⟩

/-- The row of a failed `INIT` (43_identification.md R147). -/
theorem tick_row_initFails (h : Inv s) (hs : s.Idle) (ht : exec .tick s = .next t) (hp : s.pstate = .uninitialized)
    (hsettle : s.settle = 0) (hh : (init s.beginTick).2.hung = false) (hi : (init s.beginTick).1 = false) :
    t = { (init s.beginTick).2 with settle := s.params.settleTicks, busy := false, responses := t.responses } ∧
      t.pstate = .uninitialized ∧ t.settle = s.params.settleTicks ∧ t.calibReset = false ∧ t.sampleValid = false ∧
      t.pclass = .none ∧ t.ident = 0 := by
  obtain rfl := Host.Outcome.next.inj ((exec_tick_init hs hp hsettle).symm.trans ht)
  have hparams := init_params s.beginTick
  have hsession := init_session s.beginTick
  have hout := initOutcome_init s.beginTick
  generalize init s.beginTick = r at hh hi hparams hsession hout ⊢
  obtain ⟨hpstate, _, _, hvalid, hcalib⟩ : _ ∧ _ ∧ _ ∧ _ ∧ _ := by
    simpa only [State.session, Prod.mk.injEq] using hsession
  have hidentity : r.2.identity = s.identity := by
    cases hout with
    | hangs hung => exact absurd (hh.symm.trans hung) (by simp)
    | fails _ _ hid => exact hid
    | identifies => cases hi
  obtain ⟨_, hident, hclass⟩ : _ ∧ _ ∧ _ := by simpa only [State.identity, Prod.mk.injEq] using hidentity
  rw [finishInit_false hh hi, hparams, respondTick_withSettle _ hh]
  exact ⟨rfl, hpstate.trans hp, rfl, hcalib, hvalid, hclass.trans (h.classNone.mpr hp),
    hident.trans (h.identCleared hp)⟩

/-- The rows of a `TICK` that ends with a `POLL` of `u`, by its result (43_identification.md R149 to R151). -/
theorem tick_rows_poll {u : State} (hh : (poll u).hung = false) (ht : t = respondTick (poll u)) :
    t = { poll u with busy := false, responses := t.responses } ∧
      ((poll u).result = .ok → t.pstate = u.pstate ∧ t.settle = u.settle ∧ t.calibReset = u.calibReset ∧
        t.sampleValid = true ∧ t.ident = u.ident ∧ t.pclass = u.pclass) ∧
      ((poll u).result ≠ .ok → t.pstate = .uninitialized ∧ t.settle = u.params.settleTicks ∧ t.calibReset = true ∧
        t.sampleValid = false) := by
  rw [respondTick_of_not_hung hh] at ht
  subst ht
  exact ⟨rfl, poll_row_ok hh, poll_row_failed hh⟩

end

/-- Settles O49: each branch of `TICK` is followed from its start to its response, and the invariants at its end are
those every step keeps. -/
theorem tickMovesAsTabulated : Obligations.TickMovesAsTabulated := by
  intro s t hinv hs hf ht hh
  have hend := inv_tick hinv hs ht
  have hresp : t.responses = s.responses ++ [t.tickResponse] := by
    obtain rfl := Host.Outcome.next.inj ((exec_tick_idle hs).symm.trans ht)
    exact (tickEnds_tickBody s.beginTick).resolve_left (by simp [hh])
  obtain ⟨_, hpstep, _⟩ := hend.idleWhenFree (tick_idle hs ht hh).1
  refine ⟨hpstep, hend.classNone, hend.sampleActive, hend.activeSettled, hresp, tick_row_settling hs ht,
    fun hp hsettle => ?_, fun hp => ?_⟩
  · have hfinish : t = finishInit (init s.beginTick) :=
      (Host.Outcome.next.inj ((exec_tick_init hs hp hsettle).symm.trans ht)).symm
    have hinit : (init s.beginTick).2.hung = false := by
      by_contra hn
      rw [Bool.not_eq_false] at hn
      rw [hfinish, finishInit_hung hn, hn] at hh
      cases hh
    refine ⟨_, _, s.tickBegins_beginTick, exec_init hs.2,
      tick_row_initFails hinv hs ht hp hsettle hinit, fun hi => ?_⟩
    have hparams := init_params s.beginTick
    rw [finishInit_true hinit hi (by rw [hparams]; exact hf)] at hfinish
    have hpoll : (poll (activate (init s.beginTick).2)).hung = false := by rwa [hfinish, respondTick_hung_eq] at hh
    obtain ⟨_, hsettle', _⟩ : _ ∧ _ ∧ _ := by simpa only [State.session, Prod.mk.injEq] using init_session s.beginTick
    obtain ⟨hframe, hok, hfailed⟩ := tick_rows_poll hpoll hfinish
    refine ⟨_, exec_poll (s := activate (init s.beginTick).2) hinit, hframe, fun hr => ?_, fun hr => ?_⟩
    · obtain ⟨h1, h2, h3⟩ := hok hr
      exact ⟨h1, h2.trans (hsettle'.trans hsettle), h3⟩
    · obtain ⟨h1, h2, h3⟩ := hfailed hr
      exact ⟨h1, h2.trans (congrArg (·.settleTicks) hparams), h3⟩
  · have hfinish : t = respondTick (poll s.beginTick) :=
      (Host.Outcome.next.inj ((exec_tick_active hs hp).symm.trans ht)).symm
    have hpoll : (poll s.beginTick).hung = false := by rwa [hfinish, respondTick_hung_eq] at hh
    obtain ⟨hframe, hok, hfailed⟩ := tick_rows_poll hpoll hfinish
    refine ⟨_, _, s.tickBegins_beginTick, exec_poll (s := s.beginTick) hs.2, hframe, fun hr => ?_, hfailed⟩
    obtain ⟨h1, h2, h3⟩ := hok hr
    exact ⟨h1.trans hp, h2.trans (hinv.activeSettled hp), h3⟩

end Sys2Proof.Machine

/-! `INIT`, `POLL` and `TICK` whose steps all pass (43_identification.md R143 to R150). -/

namespace Sys2Proof.Machine

open Config

/-! ## Register writes and reads whose steps all pass -/

/-- A register write of one byte whose steps all pass. -/
theorem regwr_passed {s : State} {a : BusAddr} {r v : Byte} {l : List PassingStep} {rest : List Override}
    (hh : s.hung = false) (h : s.LetsPass (writeSteps a [r, v]) l rest) : Passed 0 l rest s (regwr a r [v] s) := by
  have hsteps : transactionSteps a [r, v] (0 : Byte).toNat = writeSteps a [r, v] := List.append_nil _
  exact transact_passed (i := .xactW a [r, v]) rfl (by simp [Instr.wf, maxLen]) (by simp) hh (hsteps ▸ h)

/-- A write receives nothing. -/
theorem Passed.receivedBytes_eq_nil {l : List PassingStep} {rest : List Override} {s t : State}
    (h : Passed 0 l rest s t) : receivedBytes l = [] :=
  h.received.symm.trans (received_eq_nil h.rcount)

/-- A register read of `n` bytes with the steps `l` has led from `s` to `t`, every step having passed. -/
structure ReadPassed (n : Byte) (l : List PassingStep) (rest : List Override) (s t : State) : Prop where
  hung : t.hung = false
  result : t.result = .ok
  rcount : t.rcount = n
  received : t.received = receivedBytes l
  trace : t.trace = s.trace ++ readTokens s.params.regReadMode l
  script : t.env.script = rest

/-- A register read whose steps all pass, with its tokens by the mode (42_register_protocol.md R132). -/
theorem regrd_passed {s : State} {a : BusAddr} {r n : Byte} {l : List PassingStep} {rest : List Override} (hn : n ≠ 0)
    (hh : s.hung = false) (h : s.LetsPass (readRegisterSteps a r n) l rest) :
    ReadPassed n l rest s (regrd a r n s) := by
  obtain ⟨t, ht, hres, hcount, hrec, _, hscript, _, _, hhung, hcombined, hsplit⟩ :=
    passingRegisterReadCompletes s a r n l rest (by simpa [Instr.wf] using hn) hh h
  obtain rfl := Host.Outcome.next.inj ht
  refine ⟨hhung, hres, hcount, hrec, ?_, hscript⟩
  cases hm : s.params.regReadMode
  case combined => rw [(hcombined hm).2, readTokens_combined, List.append_assoc]
  case split => rw [(hsplit hm).2, readTokens_split]; simp only [List.append_assoc]

/-! ## `POLL` -/

/-- The report read of a `POLL` whose steps all pass. -/
theorem reportRead_passed {s : State} {l : List PassingStep} {rest : List Override} (hh : s.hung = false)
    (h : s.LetsPass (readRegisterSteps s.params.addrPrimary 0x00 6) l rest) :
    ReadPassed sampleLen l rest s (reportRead s) := by
  obtain ⟨h1, h2, h3, h4, h5, h6⟩ := regrd_passed (s := { s with pstep := .poll }) (n := sampleLen) (by decide) hh h
  exact ⟨h1, h2, h3, h4, h5, h6⟩

/-- What a `POLL` of `s` whose steps all pass leaves (43_identification.md R150). -/
structure PollPassed (l : List PassingStep) (rest : List Override) (s t : State) : Prop where
  hung : t.hung = false
  result : t.result = .ok
  pstep : t.pstep = .idle
  sampleValid : t.sampleValid = true
  sample : t.sample.toList = receivedBytes l
  trace : t.trace = s.trace ++ readTokens s.params.regReadMode l
  script : t.env.script = rest
  sequencer : (t.ident, t.pstate, t.pclass, t.settle, t.calibReset) =
    (s.ident, s.pstate, s.pclass, s.settle, s.calibReset)

theorem poll_passed {s : State} {l : List PassingStep} {rest : List Override} (hh : s.hung = false)
    (h : s.LetsPass (readRegisterSteps s.params.addrPrimary 0x00 6) l rest) : PollPassed l rest s (poll s) := by
  obtain ⟨hhung, hres, _, hrec, htrace, hscript⟩ := reportRead_passed hh h
  have hsample := (sampleTaken_sample hh hhung hres).trans hrec
  have hpoll := poll_of_ok hhung hres
  obtain ⟨hpstate, hsettle, hcalib, hvalid, hident, hclass⟩ :=
    poll_row_ok (u := s) (by rw [poll_hung, hhung]) (by rw [poll_result, hres])
  refine ⟨by rw [poll_hung, hhung], by rw [poll_result, hres], by rw [hpoll]; rfl, hvalid, by rw [hpoll, hsample],
    by rw [hpoll]; exact htrace, by rw [hpoll]; exact hscript, ?_⟩
  rw [hpstate, hsettle, hcalib, hident, hclass]

/-- Settles O50: a `POLL` that ends `OK` is its report read with the sample taken, and one whose steps all pass ends so. -/
theorem passingPollDeliversSample : Obligations.PassingPollDeliversSample := by
  refine ⟨fun s t hs h hh hr => ?_, fun s l rest hs hpass => ?_⟩
  · obtain rfl := Host.Outcome.next.inj ((exec_poll hs).symm.trans h)
    rw [poll_hung] at hh
    rw [poll_result] at hr
    rw [poll_of_ok hh hr]
    exact ⟨_, exec_reportRead s, rfl, sampleTaken_sample hs hh hr⟩
  · obtain ⟨hhung, hres, hpstep, hvalid, hsample, htrace, hscript, hseq⟩ := poll_passed hs hpass
    exact ⟨_, exec_poll hs, hvalid, hsample, hpstep, hres, htrace, hhung, hseq, poll_interface s, poll_busy s, hscript⟩

/-! ## `INIT` -/

/-- A transaction that fails at a step, after the steps `l` have passed, ends with the class of the failure and without a
hang; its recovery is the last of its tokens (41_transaction.md R118). -/
theorem transact_fails {s : State} {i : Instr} {a : BusAddr} {p : List Byte} {n : Byte} {l : List PassingStep}
    {k : StepKind} {d : Byte} {more : List (StepKind × Byte)} {o : Override} {r : Reply} {c : Result}
    {rest : List Override} (ho : xactOperands i = some (a, p, n)) (hw : i.wf = true) (hh : s.hung = false)
    (hsteps : transactionSteps a p n.toNat = l.map (fun e => (e.kind, e.data)) ++ (k, d) :: more)
    (h : s.LetsPass (l.map fun e => (e.kind, e.data)) l (o :: rest)) (hf : s.NextFails k o r c) :
    (transact a p n s).hung = false ∧ (transact a p n s).result = c ∧
      (transact a p n s).trace = s.trace ++ passingTokens l ++ [{ word := k.word d, reply := r },
        if c = .arbitrationLost then rearmToken else stopToken] ∧ (transact a p n s).env.script = rest := by
  have hs : State.Idle { s with busy := false } := ⟨rfl, hh⟩
  have e : transact a p n s = _ := transact_eq_respondXact s.busy s.responses { s with busy := false } a p n
  obtain ⟨t, ht, hres, _, ⟨_, hhung⟩, _, htrace, _, hscript⟩ :=
    failurePointEndsTransaction { s with busy := false } i a p n l k d more o r c rest ho hw hs hsteps h hf
  obtain rfl := Host.Outcome.next.inj ((exec_xact_idle ho hs).symm.trans ht)
  rw [e]
  exact ⟨hhung, hres, htrace, hscript⟩

/-- The redirect write of an `INIT` whose steps pass, acknowledged or not (43_identification.md R144). -/
theorem redirect_passed {s : State} {redirect : List Token} {l : List PassingStep} {rest : List Override}
    (hh : s.hung = false) (h : s.LetsInitPass redirect l rest) :
    ∃ u, u = regwr s.params.addrSecondary s.params.redirectReg [s.params.redirectVal] s ∧ u.hung = false ∧
      u.result ∈ [Result.ok, .addressNack] ∧ u.trace = s.trace ++ redirect ∧
      u.LetsPass (initSteps s.params) l rest := by
  refine ⟨_, rfl, ?_⟩
  obtain ⟨m, hpass, hm, rfl⟩ | ⟨n, m, st, x, y, hn, hm, hst, hpass, htake, rfl⟩ := h
  · obtain ⟨l₁, l₂, hl, hlen, hfirst, hsecond⟩ := letsPass_append hpass
    have hlen' : m.length = l₁.length := by rw [hlen, ← hm, List.length_map]
    obtain ⟨rfl, rfl⟩ := List.append_inj hl hlen'
    have hwrite := regwr_passed hh hfirst
    exact ⟨hwrite.hung, by simp [hwrite.result], by rw [hwrite.trace, List.append_assoc],
      hsecond _ (transact_params ..) hwrite.script⟩
  · have hscript : s.env.script = answered n st x :: answered m 0x20 y :: s.env.script.drop 2 := by
      rw [← List.take_append_drop 2 s.env.script, htake]
      rfl
    obtain ⟨hsteps, hall, hrest⟩ := hpass
    obtain ⟨hhung, hres, htrace, hscript'⟩ := transact_fails (s := s) (n := 0)
      (i := .xactW s.params.addrSecondary [s.params.redirectReg, s.params.redirectVal])
      (l := [⟨.start, 0, n, st, x⟩]) (k := .slaw) (d := addrWrite s.params.addrSecondary)
      (r := .ready m 0x20 y) (c := .addressNack) rfl (by simp [Instr.wf, maxLen]) hh rfl
      ⟨rfl, by simp [hn, hst], hscript⟩ (.inl ⟨m, 0x20, y, rfl, hm, rfl, rfl⟩)
    refine ⟨hhung, ?_, ?_, hsteps, by rwa [regwr, transact_params], hscript'.trans hrest⟩
    · rw [regwr, hres]
      decide
    · rw [regwr, htrace, List.append_assoc]
      rfl

/-- `INIT` goes on after an operation that has ended with one of its results. -/
theorem initFrom_cons_of_mem {e : Piece} {more : List Piece} {s : State} (hh : (afterPiece e s).hung = false)
    (hr : (afterPiece e s).result ∈ e.goesOn) : initFrom (e :: more) s = initFrom more (afterPiece e s) :=
  judged_of_mem hh hr

/-- A handshake write of `INIT` whose steps pass, before the operations `more`. -/
theorem initFrom_write_passed {s : State} {a : BusAddr} {r v : Byte} {l : List PassingStep} {rest : List Override}
    (q : PStep) (more : List Piece) (hh : s.hung = false) (h : s.LetsPass (writeSteps a [r, v]) l rest) :
    ∃ u, initFrom (⟨q, .regwr a r [v], [.ok]⟩ :: more) s = initFrom more u ∧ u.params = s.params ∧
      Passed 0 l rest s u := by
  have hpass := regwr_passed (s := { s with pstep := q }) hh h
  exact ⟨_, initFrom_cons_of_mem hpass.hung (List.mem_singleton.mpr hpass.result),
    transact_params _ _ _ { s with pstep := q }, { hpass with }⟩

/-- The identity read of `INIT` whose steps pass. -/
theorem initFrom_read_passed {s : State} {a : BusAddr} {r n : Byte} {l : List PassingStep} {rest : List Override}
    (q : PStep) (hn : n ≠ 0) (hh : s.hung = false) (h : s.LetsPass (readRegisterSteps a r n) l rest) :
    ∃ u, initFrom [⟨q, .regrd a r n, [.ok]⟩] s = (true, identityTaken u) ∧ u.params = s.params ∧
      ReadPassed n l rest s u := by
  have hpass := regrd_passed (s := { s with pstep := q }) hn hh h
  exact ⟨_, initFrom_cons_of_mem hpass.hung (List.mem_singleton.mpr hpass.result),
    regrd_params _ _ _ { s with pstep := q }, { hpass with }⟩

/-- What an `INIT` of `s` whose steps pass leaves: the identity of the two bytes read, and its tokens
(43_identification.md R143 to R146). -/
structure InitPassed (redirect : List Token) (l : List PassingStep) (rest : List Override) (d0 d1 : Byte)
    (s t : State) : Prop where
  hung : t.hung = false
  result : t.result = .ok
  pstep : t.pstep = .idle
  received : receivedBytes l = [d0, d1]
  ident : t.ident = d0 ++ d1
  pclass : t.pclass = classifyIdent s.params (d0 ++ d1)
  trace : t.trace = s.trace ++ redirect ++ initTokens s.params.regReadMode l
  script : t.env.script = rest

/-- The tokens of the two handshake writes, of four steps each, and of the identity read. -/
theorem initTokens_append (m : RegReadMode) {l₁ l₂ : List PassingStep} (l₃ : List PassingStep) (h₁ : l₁.length = 4)
    (h₂ : l₂.length = 4) : initTokens m (l₁ ++ l₂ ++ l₃) =
      passingTokens l₁ ++ [stopToken] ++ (passingTokens l₂ ++ [stopToken]) ++ readTokens m l₃ := by
  have e : (l₁ ++ l₂ ++ l₃).drop 8 = l₃ := List.drop_left' (by simp [h₁, h₂])
  rw [initTokens, e, List.append_assoc l₁, List.take_left' h₁, List.drop_left' h₁, List.take_left' h₂]
  simp only [List.append_assoc]

/-- The identity is big-endian (20_memory.md R46). -/
theorem identOf_pair (d0 d1 : Byte) : identOf [d0, d1] = d0 ++ d1 := rfl

/-- The two handshake writes and the identity read, from the end `s` of the redirect write. -/
theorem init_handshake_passed {s : State} {c : Params} {l : List PassingStep} {rest : List Override}
    (hc : s.params = c) (hh : s.hung = false) (h : s.LetsPass (initSteps c) l rest) :
    ∃ d0 d1 t, initFrom ((initPieces c).drop 1) s = (true, t) ∧ InitPassed [] l rest d0 d1 s t := by
  subst hc
  obtain ⟨l₁₂, l₃, rfl, hlen, hwrites, hread⟩ := letsPass_append h
  obtain ⟨l₁, l₂, rfl, hlen₁, hfirst, hsecond⟩ := letsPass_append hwrites
  replace hlen₁ : l₁.length = 4 := hlen₁
  have hlen₂ : l₂.length = 4 := by
    have hboth : (l₁ ++ l₂).length = 8 := hlen
    rw [List.length_append] at hboth
    omega
  obtain ⟨u, hrun₁, hp₁, hu⟩ := initFrom_write_passed .hs1 ((initPieces s.params).drop 2) hh hfirst
  obtain ⟨v, hrun₂, hp₂, hv⟩ :=
    initFrom_write_passed .hs2 ((initPieces s.params).drop 3) hu.hung (hsecond u hp₁ hu.script)
  obtain ⟨w, hrun₃, hp₃, hw⟩ :=
    initFrom_read_passed .ident (by decide) hv.hung (hread v (hp₂.trans hp₁) hv.script)
  have hreceived : receivedBytes (l₁ ++ l₂ ++ l₃) = w.received := by
    rw [receivedBytes_append, receivedBytes_append, hu.receivedBytes_eq_nil, hv.receivedBytes_eq_nil, hw.received]
    rfl
  obtain ⟨d0, d1, hd⟩ := List.length_eq_two.mp ((received_length w).trans (congrArg BitVec.toNat hw.rcount))
  have hident : identOf w.received = d0 ++ d1 := by rw [hd, identOf_pair]
  refine ⟨d0, d1, _, hrun₁.trans (hrun₂.trans hrun₃), hw.hung, hw.result, rfl, hreceived.trans hd, hident, ?_, ?_,
    hw.script⟩
  · exact congrArg₂ classifyIdent (hp₃.trans (hp₂.trans hp₁)) hident
  · calc w.trace = v.trace ++ readTokens s.params.regReadMode l₃ := by rw [hw.trace, hp₂, hp₁]
      _ = s.trace ++ [] ++ initTokens s.params.regReadMode (l₁ ++ l₂ ++ l₃) := by
        rw [hv.trace, hu.trace, initTokens_append _ _ hlen₁ hlen₂]
        simp only [List.append_assoc, List.append_nil]

/-- An `INIT` whose steps all pass. -/
theorem init_passed {s : State} {redirect : List Token} {l : List PassingStep} {rest : List Override}
    (hh : s.hung = false) (h : s.LetsInitPass redirect l rest) :
    ∃ d0 d1 t, init s = (true, t) ∧ InitPassed redirect l rest d0 d1 s t := by
  obtain ⟨u, hu, hhung, hres, htrace, hpass⟩ := redirect_passed (s := { s with pstep := .redirect }) hh h
  have hp : u.params = s.params := hu ▸ transact_params ..
  obtain ⟨d0, d1, t, hrun, hend⟩ := init_handshake_passed hp hhung hpass
  refine ⟨d0, d1, t, ?_, { hend with pclass := ?_, trace := ?_ }⟩
  · subst hu
    rw [init_eq_initFrom, ← hrun]
    exact initFrom_cons_of_mem hhung hres
  · rw [hend.pclass, hp]
  · rw [hend.trace, htrace, hp, List.append_nil]

/-- Settles O52: the four operations pass one after another, and the identity read has received two bytes. -/
theorem passingInitIdentifies : Obligations.PassingInitIdentifies := by
  intro s redirect l rest hh h
  obtain ⟨d0, d1, t, hinit, hend⟩ := init_passed hh h
  have hexec : exec .init s = .next t := (exec_init hh).trans (by rw [hinit])
  have hsession := init_session s
  obtain ⟨hinterface, hbusy⟩ := init_interface_busy s
  rw [hinit] at hsession hinterface hbusy
  exact ⟨t, d0, d1, hexec, hend.received, hend.result, hend.trace, hend.ident, hend.pclass, hend.pstep, hend.hung,
    hsession, hinterface, hbusy, hend.script⟩

/-! ## `TICK` -/

/-- A `TICK` that ends with a passing `POLL` of `u` responds with the identity and the sample (30_encoding.md R66). -/
theorem respondTick_polled {u : State} {m : List PassingStep} {rest : List Override} {v : State}
    (h : PollPassed m rest u v) : respondTick v = v.respond v.tickResponse ∧ v.tickResponse =
      v.tickByte0 :: u.ident.extractLsb' 8 8 :: u.ident.extractLsb' 0 8 :: receivedBytes m := by
  have hident : v.ident = u.ident := congrArg (·.1) h.sequencer
  refine ⟨respondTick_of_not_hung h.hung, ?_⟩
  rw [State.tickResponse, hident, h.sampleValid, if_pos rfl, h.sample]

/-- Settles O55: the `TICK` is its `POLL`, whose steps all pass, and the response. -/
theorem passingTickPolls : Obligations.PassingTickPolls := by
  intro s m rest hs hp hpass
  have hpoll := poll_passed (s := s.beginTick) hs.2 hpass
  obtain ⟨hend, hresp⟩ := respondTick_polled hpoll
  obtain ⟨hident, hpstate, hclass, hsettle, hcalib⟩ : _ ∧ _ ∧ _ ∧ _ ∧ _ := by
    simpa only [Prod.mk.injEq] using hpoll.sequencer
  refine ⟨_, (exec_tick_active hs hp).trans (congrArg _ hend), ⟨rfl, hpoll.hung⟩, hpoll.sampleValid, hpoll.sample,
    hpoll.trace, hcalib, ?_, hpoll.script, ?_⟩
  · exact Prod.ext hident (Prod.ext hpstate (Prod.ext hclass hsettle))
  · rw [State.respond_responses, hresp, poll_responses]
    rfl

/-- Settles O54: `INIT` passes and takes the identity, and the `POLL` that follows it in the same `TICK` passes too. -/
theorem passingTickIdentifiesAndPolls : Obligations.PassingTickIdentifiesAndPolls := by
  intro s redirect l m rest hs hp hsettle hf hinit hm hall
  obtain ⟨d0, d1, u, hrun, hi⟩ := init_passed (s := s.beginTick) hs.2 hinit
  have hsession : u.session = _ := (congrArg (·.2.session) hrun).symm.trans (init_session s.beginTick)
  have hparams : u.params = s.params := (congrArg (·.2.params) hrun).symm.trans (init_params s.beginTick)
  have hresponses : u.responses = s.responses :=
    (congrArg (·.2.responses) hrun).symm.trans (init_responses s.beginTick)
  obtain ⟨_, hsettle', _⟩ : _ ∧ _ ∧ _ := by simpa only [State.session, Prod.mk.injEq] using hsession
  have hpass : (activate u).LetsPass (readRegisterSteps (activate u).params.addrPrimary 0x00 6) m rest := by
    rw [activate_params, hparams]
    exact ⟨hm, by simpa only [activate_params, hparams] using hall, hi.script⟩
  have hpoll := poll_passed (s := activate u) hi.hung hpass
  obtain ⟨hend, hresp⟩ := respondTick_polled hpoll
  obtain ⟨hident, hpstate, hclass, hsettle'', hcalib⟩ : _ ∧ _ ∧ _ ∧ _ ∧ _ := by
    simpa only [Prod.mk.injEq] using hpoll.sequencer
  have hexec : exec .tick s = .next (respondTick (poll (activate u))) := by
    rw [exec_tick_init hs hp hsettle, hrun, finishInit_true (r := (true, u)) hi.hung rfl (by rw [hparams]; exact hf)]
  refine ⟨_, d0, d1, hexec.trans (congrArg _ hend), hi.received, ⟨rfl, hpoll.hung⟩, ?_, hpstate, hident.trans hi.ident,
    hclass.trans hi.pclass, hsettle''.trans (hsettle'.trans hsettle), hpoll.sampleValid, hpoll.sample, hcalib,
    hpoll.script, ?_⟩
  · rw [State.respond_trace, hpoll.trace, activate_trace, hi.trace, activate_params, hparams]
    rfl
  · rw [State.respond_responses, hresp, poll_responses, activate_responses, hresponses, activate_ident, hi.ident,
      BitVec.extractLsb'_append_eq_left, BitVec.extractLsb'_append_eq_right]
    rfl

end Sys2Proof.Machine

/-! A `TICK` with one peripheral of the reference environment: it is moved to the primary address if it is of the
secondary type, identified and read (43_identification.md R141 to R150, 20_memory.md R47 to R49). -/

namespace Sys2Proof.Machine

open Config

/-! ## The peripheral at the primary address -/

/-- The peripheral answers at the primary address, and its registers read as `g`. -/
structure Peripheral.AtPrimary (c : Params) (g : Byte → Byte) (q : Peripheral) : Prop where
  paddr : q.paddr = c.addrPrimary
  settling : q.settling = false
  regsWf : q.reg.wf
  reads : ∀ x : Byte, q.reg.read x.toNat = g x

theorem Peripheral.answersAt_iff (p : Peripheral) (a : BusAddr) :
    p.answersAt a = true ↔ p.paddr = a ∧ p.settling = false := by
  simp [Peripheral.answersAt]

section
variable {c : Params} {g : Byte → Byte} {p : Peripheral}

theorem Peripheral.AtPrimary.answersAt (h : p.AtPrimary c g) : p.answersAt c.addrPrimary = true :=
  (p.answersAt_iff _).mpr ⟨h.paddr, h.settling⟩

/-- The `STOP` leaves a peripheral that was there, or has noted a redirect, at the primary address
(20_memory.md R47). -/
theorem Peripheral.atPrimary_stop (hp : p.paddr = c.addrPrimary ∨ p.redirectPending = true)
    (hs : p.settling = false) (hwf : p.reg.wf) (hr : ∀ x : Byte, p.reg.read x.toNat = g x) :
    (p.act c .stop 0).AtPrimary c g := by
  refine ⟨?_, hs, hwf, hr⟩
  simp only [Peripheral.act]
  split
  · rfl
  · exact hp.resolve_right ‹_›

/-- The registers after a byte is stored. -/
theorem Memory.read_write_eq_update {m : Memory} (hwf : m.wf) (r v x : Byte) :
    (m.write r.toNat v).read x.toNat = Function.update (fun y : Byte => m.read y.toNat) r v x := by
  by_cases h : x = r
  · subst h
    rw [Function.update_self]
    exact Memory.read_write_same _ _ hwf
  · rw [Function.update_of_ne h]
    exact Memory.read_write_ne v fun e => h (BitVec.eq_of_toNat_eq e)

/-- A pointer byte and one byte to store (20_memory.md R48). -/
theorem Peripheral.sent_pair (c : Params) (r v : Byte) (p : Peripheral) :
    p.sent c [r, v] = { p with
      reg := p.reg.write r.toNat v
      ptr := r + 1
      sel := .wr
      redirectPending := p.redirectPending ||
        (p.secondary && p.paddr == c.addrSecondary && r == c.redirectReg && v == c.redirectVal) } :=
  Peripheral.transmit_wr c v (p := { p with ptr := r, sel := .wr }) rfl

/-- A register write of one byte, to a peripheral at the primary address or one that it redirects, stores the byte and
leaves the peripheral at the primary address. -/
theorem Peripheral.atPrimary_sent {n : Byte} (r v : Byte)
    (hp : p.paddr = c.addrPrimary ∨
      p.secondary = true ∧ p.paddr = c.addrSecondary ∧ r = c.redirectReg ∧ v = c.redirectVal)
    (hs : p.settling = false) (hwf : p.reg.wf) (hr : ∀ x : Byte, p.reg.read x.toNat = g x) :
    (Peripheral.act c .stop 0 { p.sent c [r, v] with ptr := (p.sent c [r, v]).ptr + n }).AtPrimary c
      (Function.update g r v) := by
  rw [Peripheral.sent_pair]
  refine Peripheral.atPrimary_stop ?_ hs (Memory.write_wf v r.isLt hwf) fun x => ?_
  · exact hp.imp_right fun ⟨hsec, haddr, hreg, hval⟩ => by simp [hsec, haddr, hreg, hval]
  · rw [← funext hr]
    exact Memory.read_write_eq_update hwf r v x

end

/-! ## A block with the peripheral at the primary address -/

/-- The block does not hang, and its reference environment holds just a peripheral at the primary address whose
registers read as `g`. -/
structure State.Serves (c : Params) (g : Byte → Byte) (t : State) : Prop where
  hung : t.hung = false
  params : t.params = c
  peripheral : ∃ q, t.Alone q ∧ q.AtPrimary c g

section
variable {c : Params} {g : Byte → Byte} {s t : State} {p : Peripheral}

/-- What it serves depends on the parameters and the environment alone. -/
theorem State.Serves.of_eq (h : s.Serves c g) (hh : t.hung = s.hung) (hp : t.params = s.params) (he : t.env = s.env) :
    t.Serves c g := by
  obtain ⟨q, hq, hprimary⟩ := h.peripheral
  exact ⟨hh.trans h.hung, hp.trans h.params, q, hq.of_env he, hprimary⟩

theorem State.Serves.registerAt (h : s.Serves c g) (x : Byte) : s.registerAt 0 x = some (g x) := by
  obtain ⟨q, hq, hprimary⟩ := h.peripheral
  rw [hq.registerAt, hprimary.reads]

/-- A register write of one byte at the primary address. -/
theorem State.Serves.regwr (h : s.Serves c g) (r v : Byte) :
    (regwr c.addrPrimary r [v] s).result = .ok ∧ (regwr c.addrPrimary r [v] s).Serves c (Function.update g r v) := by
  obtain ⟨hh, rfl, q, hq, hprimary⟩ := h
  obtain ⟨hhung, hres, _, hq'⟩ :=
    transact_served (l := [r, v]) (n := 0) hq hprimary.answersAt hh (by simp [maxLen]) (by simp)
  exact ⟨hres, hhung, transact_params .., _, hq', Peripheral.atPrimary_sent r v (.inl hprimary.paddr)
    hprimary.settling hprimary.regsWf hprimary.reads⟩

/-- Wherever a read leaves the pointer, the peripheral stays where it is. -/
theorem Peripheral.AtPrimary.moved (h : p.AtPrimary c g) (x : Byte) (m : Selection) :
    (Peripheral.act c .stop 0 { p with ptr := x, sel := m }).AtPrimary c g :=
  Peripheral.atPrimary_stop (.inl h.paddr) h.settling h.regsWf h.reads

theorem Peripheral.registersFrom_of_reads (h : ∀ x : Byte, p.reg.read x.toNat = g x) (m : Nat) :
    p.registersFrom m = (List.range m).map fun j => g (p.ptr + BitVec.ofNat 8 j) := by
  simp only [Peripheral.registersFrom, h]

/-- A transaction that stores nothing at the primary address, the pointer being at `x` when its read phase begins. -/
theorem transact_atPrimary {l : List Byte} {n x : Byte} {m : Selection} (hc : s.params = c) (ho : s.Alone p)
    (h : p.AtPrimary c g) (hh : s.hung = false) (hl : l.length ≤ maxLen) (hne : ¬(l = [] ∧ n = 0))
    (hx : p.sent c l = { p with ptr := x, sel := m }) :
    (transact c.addrPrimary l n s).hung = false ∧ (transact c.addrPrimary l n s).result = .ok ∧
      (transact c.addrPrimary l n s).received = (List.range n.toNat).map (fun j => g (x + BitVec.ofNat 8 j)) ∧
      ∃ q, (transact c.addrPrimary l n s).Alone q ∧ q.AtPrimary c g ∧ q.ptr = x + n := by
  subst hc
  obtain ⟨hhung, hres, hrec, hq⟩ := transact_served ho h.answersAt hh hl hne
  rw [hx] at hrec hq
  exact ⟨hhung, hres, hrec.trans (Peripheral.registersFrom_of_reads (p := { p with ptr := x, sel := m }) h.reads _), _,
    hq, h.moved _ _, rfl⟩

/-- A register read at the primary address returns the registers from `r` on (20_memory.md R49). -/
theorem State.Serves.regrd (h : s.Serves c g) (r : Byte) {n : Byte} (hn : n ≠ 0) :
    (regrd c.addrPrimary r n s).result = .ok ∧ (regrd c.addrPrimary r n s).Serves c g ∧
      (regrd c.addrPrimary r n s).received = (List.range n.toNat).map fun j => g (r + BitVec.ofNat 8 j) := by
  obtain ⟨hh, hc, q, hq, hprimary⟩ := h
  have pointer (n : Byte) :=
    transact_atPrimary (l := [r]) (n := n) (x := r) (m := .wr) hc hq hprimary hh (by simp [maxLen]) (by simp) rfl
  cases hm : s.params.regReadMode
  case combined =>
    obtain ⟨hhung, hres, hrec, q', hq', hprimary', _⟩ := pointer n
    rw [regrd_combined _ r n hm]
    exact ⟨hres, ⟨hhung, (transact_params ..).trans hc, q', hq', hprimary'⟩, hrec⟩
  case split =>
    obtain ⟨hhung, hres, _, q', hq', hprimary', hptr⟩ := pointer 0
    replace hptr : q'.ptr = r := hptr.trans (BitVec.add_zero r)
    have hp : (transact c.addrPrimary [r] 0 s).params = c := (transact_params ..).trans hc
    rw [regrd_split _ r n hm hhung hres]
    generalize transact c.addrPrimary [r] 0 s = u at hhung hq' hp ⊢
    obtain ⟨hhung', hres', hrec', q'', hq'', hprimary'', _⟩ :=
      transact_atPrimary (s := { u with pstep := u.pstep.readHalf }) (l := []) (n := n) (x := q'.ptr) (m := .wrFirst)
        hp (hq'.of_env rfl) hprimary' hhung (Nat.zero_le _) (fun e => hn e.2) rfl
    rw [hptr] at hrec'
    exact ⟨hres', ⟨hhung', (transact_params ..).trans hp, q'', hq'', hprimary''⟩, hrec'⟩

/-- A peripheral at another address leaves an address step for writing unacknowledged (20_memory.md R48). -/
theorem State.Alone.classify_slaw (h : t.Alone p) {a : BusAddr} (ha : p.answersAt a = false) :
    classify .slaw (t.replyTo .slaw (addrWrite a)) = some .addressNack := by
  obtain ⟨o, ho⟩ := h.ref
  have hr : t.replyTo .slaw (addrWrite a) = .ready 0 stSlawNack Env0.noRx := by
    simp [State.replyTo, Environment.draw, ho, Environment.scripted, h.script, Env0.answer, Env0.address, ha,
      replyOf_polls_zero]
  rw [hr]
  rfl

theorem Peripheral.act_slaw_unanswered (c : Params) {a : BusAddr} (h : p.answersAt a = false) :
    p.act c .slaw (addrWrite a) = p := by
  simp [Peripheral.act, h]

/-- A register write to another address ends with `ADDRESS_NACK` and a `STOP` (41_transaction.md R118). -/
theorem transact_unanswered {a : BusAddr} (r v : Byte) (h : s.Alone p) (hh : s.hung = false)
    (ha : p.answersAt a = false) : (transact a [r, v] 0 s).hung = false ∧
      (transact a [r, v] 0 s).result = .addressNack ∧ (transact a [r, v] 0 s).Alone (p.act s.params .stop 0) := by
  obtain ⟨st, rx, hstart, hpass, _⟩ := h.replyTo (k := .start) (d := 0) rfl
  have hstarted : (s.busWait .start 0).Alone { p with sel := .none } := h.busWait .start 0
  have hnack := hstarted.classify_slaw ha
  have hended : (((s.busWait .start 0).busWait .slaw (addrWrite a)).busRelease .stop).Alone
      (p.act s.params .stop 0) := by
    have hstop := (hstarted.busWait .slaw (addrWrite a)).busStop
    rw [Peripheral.act_slaw_unanswered (p := { p with sel := .none }) _ ha, State.busWait_params,
      State.busWait_params] at hstop
    exact hstop
  have hrun : specTransact a [r, v] 0 s =
      (some (.addressNack, []), ((s.busWait .start 0).busWait .slaw (addrWrite a)).busRelease .stop) := by
    rw [specTransact, if_neg (by simp), if_neg (by simp), specThen_passes hstart hpass, specThen_fails hnack]
    rfl
  have hspec : onBus (specTransact a [r, v] 0 s) = _ :=
    specTransact_transact (l := [r, v]) a 0 (by simp [maxLen]) hh
  rw [hrun] at hspec
  obtain ⟨hout, hbus⟩ := Prod.mk.inj hspec
  obtain ⟨_, henv, _, _⟩ := State.bus_eq_iff.mp hbus
  cases hhung : (transact a [r, v] 0 s).hung
  · simp only [hhung, Bool.false_eq_true, ↓reduceIte, Option.some.injEq, Prod.mk.injEq] at hout
    exact ⟨rfl, hout.1.symm, hended.of_env henv.symm⟩
  · rw [hhung] at hout
    cases hout

end

/-! ## `INIT` with the peripheral -/

/-- The peripheral of programs P1 and P3 (95_test_vectors.md), and what its registers read after the redirect write: it
answers at the primary address, or it is of the secondary type and answers at the secondary address. -/
def Peripheral.Redirectable (c : Params) (g : Byte → Byte) (p : Peripheral) : Prop :=
  (p.answersAt c.addrPrimary = true ∧ ∀ x, g x = p.reg.read x.toNat) ∨
    (p.answersAt c.addrSecondary = true ∧ p.secondary = true ∧
      ∀ x, g x = if x = c.redirectReg then c.redirectVal else p.reg.read x.toNat)

section
variable {c : Params} {g : Byte → Byte} {s : State} {p : Peripheral}

/-- The redirect write finds the peripheral at the primary address, and is not acknowledged, or moves it there
(43_identification.md R144). -/
theorem redirect_serves (h : s.Alone p) (hc : s.params = c) (hh : s.hung = false) (hwf : p.reg.wf)
    (hp : p.Redirectable c g) :
    (regwr c.addrSecondary c.redirectReg [c.redirectVal] s).result ∈ [Result.ok, .addressNack] ∧
      (regwr c.addrSecondary c.redirectReg [c.redirectVal] s).Serves c g := by
  subst hc
  rcases hp with ⟨ha, hg⟩ | ⟨ha, hsec, hg⟩
  · obtain ⟨haddr, hsettling⟩ := (p.answersAt_iff _).mp ha
    have hother : p.answersAt s.params.addrSecondary = false := by
      rw [← Bool.not_eq_true, p.answersAt_iff, haddr]
      exact fun e => s.params.addrDistinct e.1.symm
    obtain ⟨hhung, hres, hq⟩ := transact_unanswered s.params.redirectReg s.params.redirectVal h hh hother
    exact ⟨by rw [regwr, hres]; decide, hhung, transact_params .., _, hq,
      Peripheral.atPrimary_stop (.inl haddr) hsettling hwf fun x => (hg x).symm⟩
  · obtain ⟨haddr, hsettling⟩ := (p.answersAt_iff _).mp ha
    obtain ⟨hhung, hres, _, hq⟩ := transact_served (l := [s.params.redirectReg, s.params.redirectVal]) (n := 0) h ha hh
      (by simp [maxLen]) (by simp)
    have hupdate : g = Function.update (fun x => p.reg.read x.toNat) s.params.redirectReg s.params.redirectVal :=
      funext fun x => by rw [hg, Function.update_apply]
    refine ⟨by rw [regwr, hres]; decide, hhung, transact_params .., _, hq, ?_⟩
    rw [hupdate]
    exact Peripheral.atPrimary_sent _ _ (.inr ⟨hsec, haddr, rfl, rfl⟩) hsettling hwf fun _ => rfl

/-- A handshake write of `INIT`, before the operations `more`. -/
theorem initFrom_write_serves (q : PStep) (r v : Byte) (more : List Piece) (h : s.Serves c g) :
    ∃ u, initFrom (⟨q, .regwr c.addrPrimary r [v], [.ok]⟩ :: more) s = initFrom more u ∧
      u.Serves c (Function.update g r v) := by
  have hq : State.Serves c g { s with pstep := q } := h.of_eq rfl rfl rfl
  obtain ⟨hres, hu⟩ := hq.regwr r v
  exact ⟨_, initFrom_cons_of_mem hu.hung (List.mem_singleton.mpr hres), hu⟩

/-- The identity read of `INIT`. -/
theorem initFrom_read_serves (q : PStep) (r : Byte) {n : Byte} (hn : n ≠ 0) (h : s.Serves c g) :
    ∃ u, initFrom [⟨q, .regrd c.addrPrimary r n, [.ok]⟩] s = (true, identityTaken u) ∧ u.Serves c g ∧
      u.received = (List.range n.toNat).map fun j => g (r + BitVec.ofNat 8 j) := by
  have hq : State.Serves c g { s with pstep := q } := h.of_eq rfl rfl rfl
  obtain ⟨hres, hu, hrec⟩ := hq.regrd r hn
  exact ⟨_, initFrom_cons_of_mem hu.hung (List.mem_singleton.mpr hres), hu, hrec⟩

/-- The registers after the two handshake writes (43_identification.md R145). -/
def handshaken (g : Byte → Byte) : Byte → Byte := Function.update (Function.update g 0xF0 0x55) 0xFB 0x00

theorem handshaken_of_ne {x : Byte} (h1 : x ≠ 0xF0) (h2 : x ≠ 0xFB) : handshaken g x = g x := by
  rw [handshaken, Function.update_of_ne h2, Function.update_of_ne h1]

/-- `INIT` with the peripheral takes the identity of its registers `0xFE` and `0xFF`. -/
theorem init_serves (h : s.Alone p) (hc : s.params = c) (hh : s.hung = false) (hwf : p.reg.wf)
    (hp : p.Redirectable c g) : ∃ u, init s = (true, identityTaken u) ∧ u.Serves c (handshaken g) ∧
      u.received = [g 0xFE, g 0xFF] := by
  obtain ⟨hres, hredirect⟩ := redirect_serves (s := { s with pstep := .redirect }) (h.of_env rfl) hc hh hwf hp
  have hrun : initFrom (initPieces c) s = initFrom ((initPieces c).drop 1) _ :=
    initFrom_cons_of_mem (e := ⟨.redirect, .regwr c.addrSecondary c.redirectReg [c.redirectVal], [.ok, .addressNack]⟩)
      hredirect.hung hres
  obtain ⟨u, hrun₁, hu⟩ := initFrom_write_serves .hs1 0xF0 0x55 ((initPieces c).drop 2) hredirect
  obtain ⟨v, hrun₂, hv⟩ := initFrom_write_serves .hs2 0xFB 0x00 ((initPieces c).drop 3) hu
  obtain ⟨w, hrun₃, hw, hrec⟩ := initFrom_read_serves .ident 0xFE (n := 2) (by decide) hv
  refine ⟨w, ?_, hw, ?_⟩
  · rw [init_eq_initFrom, hc]
    exact hrun.trans (hrun₁.trans (hrun₂.trans hrun₃))
  · rw [hrec, ← handshaken_of_ne (g := g) (x := 0xFE) (by decide) (by decide),
      ← handshaken_of_ne (g := g) (x := 0xFF) (by decide) (by decide)]
    rfl

/-- `POLL` with the peripheral delivers its registers `0x00` to `0x05`. -/
theorem poll_serves (h : s.Serves c g) : (poll s).result = .ok ∧ (poll s).Serves c g ∧
    (poll s).sample.toList = [g 0, g 1, g 2, g 3, g 4, g 5] := by
  have hread : (reportRead s).result = .ok ∧ (reportRead s).Serves c g ∧
      (reportRead s).received = [g 0, g 1, g 2, g 3, g 4, g 5] := by
    obtain rfl := h.params
    exact State.Serves.regrd (s := { s with pstep := .poll }) (h.of_eq rfl rfl rfl) regReport (by decide)
  obtain ⟨hres, hserves, hrec⟩ := hread
  refine ⟨by rw [poll_result, hres], ?_⟩
  rw [poll_of_ok hserves.hung hres]
  exact ⟨hserves.of_eq rfl rfl rfl, (sampleTaken_sample h.hung hserves.hung hres).trans hrec⟩

end

/-! ## `TICK` with the peripheral -/

/-- Settles O56: `INIT` moves and identifies the peripheral, and the `POLL` that follows it reads its first
registers. -/
theorem tickIdentifiesAttachedPeripheral : Obligations.TickIdentifiesAttachedPeripheral := by
  intro s e p g hinv hs hp hsettle hf he hone hperipheral
  have halone := State.Alone.of_eq he hone
  have hwf : p.reg.wf := hinv.regsWf p (by rw [halone.peripherals]; exact List.mem_singleton_self p)
  obtain ⟨u, hrun, hu, hrec⟩ := init_serves (s := s.beginTick) (halone.of_env rfl) rfl hs.2 hwf hperipheral
  have hactive : (activate (identityTaken u)).Serves s.params (handshaken g) := hu.of_eq rfl rfl rfl
  have hexec : exec .tick s = .next (respondTick (poll (activate (identityTaken u)))) := by
    rw [exec_tick_init hs hp hsettle, hrun,
      finishInit_true (r := (true, identityTaken u)) hu.hung rfl ((congrArg (·.fallthrough) hu.params).trans hf)]
  obtain ⟨hres, hpoll, hsample⟩ := poll_serves hactive
  obtain ⟨hpstate, _, hcalib, hvalid, hident, hclass⟩ := poll_row_ok hpoll.hung hres
  rw [respondTick_of_not_hung hpoll.hung] at hexec
  have hend : ((poll (activate (identityTaken u))).respond (poll (activate (identityTaken u))).tickResponse).Serves
      s.params (handshaken g) := hpoll.of_eq rfl rfl rfl
  obtain ⟨q, hq, hprimary⟩ := hend.peripheral
  refine ⟨_, hexec, ⟨rfl, hpoll.hung⟩, hpstate, ?_, ?_, hvalid, ?_, hcalib, hend.registerAt 0xF0, hend.registerAt 0xFB,
    fun x h1 h2 => ?_, q, hq.peripherals, hprimary.paddr⟩
  · rw [State.respond_ident, hident, activate_ident, identityTaken, hrec, identOf_pair]
  · rw [State.respond_pclass, State.respond_ident, hclass, hident]
    exact congrArg (classifyIdent · _) hu.params
  · rw [State.respond_sample, hsample]
    iterate 6 rw [handshaken_of_ne (by decide) (by decide)]
  · rw [hend.registerAt, handshaken_of_ne h1 h2]

end Sys2Proof.Machine

/-! What the block answers whatever the environment does: nothing from a hang, no result that its operation cannot
produce, and with a finite `WAIT_LIMIT` always a response (60_exceptions.md R171, R183). -/

namespace Sys2Proof.Machine

open Config

/-- What the start of a transaction that is not empty has, and every bus step keeps, the transaction has at its end. -/
theorem transact_induct {P : State → Prop} {a : BusAddr} {p : List Byte} {n : Byte} {s : State}
    (hne : ¬(p = [] ∧ n = 0)) (hh : s.hung = false) (hbegin : P (s.beginTransaction a p n))
    (hstep : ∀ t, P t → t.hung = false → t.phase ≠ .idle → P (issue t)) : P (transact a p n s) := by
  simp only [transact, hh, Bool.false_eq_true, ↓reduceIte, if_neg hne]
  exact engine_induct hstep _ _ hbegin

/-! ## The hang (60_exceptions.md R183) -/

theorem whenIdle_hung {s : State} (h : s.hung = true) (t : State) : s.whenIdle t = s := by
  simp [State.whenIdle, h]

theorem regrd_hung {s : State} (a : BusAddr) (r n : Byte) (h : s.hung = true) : regrd a r n s = s := by
  have hp : pointerHalf a r n s = s := by
    unfold pointerHalf
    split <;> exact transact_hung _ _ _ _ h
  rw [regrd, hp, readHalf_hung a n h]

/-- From the hang on no instruction changes anything: a host command is not taken up, and the rest issue nothing. -/
theorem exec_hung {s : State} (h : s.hung = true) (i : Instr) : exec i s = .next s := by
  cases i
  case xactInv | xactW | xactR | xactWr | tick => exact congrArg _ (whenIdle_hung h _)
  case regwr => exact congrArg _ (transact_hung _ _ _ s h)
  case regrd => exact congrArg _ (regrd_hung _ _ _ h)
  case init | poll | stop | rearm => exact congrArg _ (if_pos h)
  all_goals exact congrArg _ (waitingStep_hung s _ _ _ h)

/-- Settles O15: neither a step nor an instruction goes on from the hang. -/
theorem hangKeepsEverything : Obligations.HangKeepsEverything := fun _ h => ⟨step_hung h, exec_hung h⟩

/-! ## The results of a transaction (60_exceptions.md R171) -/

theorem nackOf_dataNack {k : StepKind} {st : Byte} (h : nackOf k st = some .dataNack) : k = .txd := by
  cases k <;> simp only [nackOf, Option.ite_none_right_eq_some, Option.some.injEq, reduceCtorEq, and_false] at h
  case txd => rfl

/-- Only `TXD` has a `DATA_NACK` (40_bus_steps.md R100). -/
theorem classify_dataNack {k : StepKind} {r : Reply} (h : classify k r = some .dataNack) : k = .txd := by
  cases r <;> simp only [classify, Option.some.injEq, reduceCtorEq] at h
  case ready w st rx =>
    simp only [classifyStatus_eq, failureOf, Option.ite_none_left_eq_some, Option.some.injEq] at h
    obtain ⟨_, h⟩ := h
    split_ifs at h
    cases hn : nackOf k st with
    | none => simp [hn] at h
    | some c =>
      obtain rfl : c = .dataNack := by simpa [hn] using h
      exact nackOf_dataNack hn

/-- A bus step of the engine leaves `RESULT`, or raises the class of the reply to the step of its phase. -/
theorem issue_result {s : State} (hh : s.hung = false) (hp : s.phase ≠ .idle) :
    (issue s).result = s.result ∨ (issue s).result ≠ .invalidArgument ∧
      ∃ k r, s.stepKind = some k ∧ classify k r = some (issue s).result := by
  obtain ⟨k, hk⟩ := exists_stepKind hp
  rcases Phase.waits_or_releases hp with hw | hr
  · rcases issue_by_reply hh hw hk with ⟨_, _, rx, _, _, _, e⟩ | ⟨c, _, hc, _, hclass, e⟩ | ⟨_, _, e⟩ <;> rw [e]
    · exact .inl (State.afterPass_result _ rx)
    · exact .inr ⟨hc, k, _, hk, hclass⟩
    · exact .inl rfl
  · obtain ⟨e, _⟩ := issue_of_release hh hr hk
    exact .inl (by rw [e, State.busRelease_result])

theorem beginTransaction_result_ok (s : State) (a : BusAddr) {p : List Byte} {n : Byte} (hne : ¬(p = [] ∧ n = 0)) :
    (s.beginTransaction a p n).result = .ok := by
  rw [State.beginTransaction_result, if_neg hne]

/-- A transaction that is not empty is not an invalid one. -/
theorem transact_result_ne_invalidArgument (a : BusAddr) {p : List Byte} {n : Byte} {s : State}
    (hne : ¬(p = [] ∧ n = 0)) (hh : s.hung = false) : (transact a p n s).result ≠ .invalidArgument := by
  refine transact_induct (P := fun t => t.result ≠ .invalidArgument) hne hh ?_ fun t ht hh hp => ?_
  · exact (beginTransaction_result_ok s a hne).trans_ne (by decide)
  · rcases issue_result hh hp with e | ⟨hc, _⟩
    · rwa [e]
    · exact hc

/-- One that sends no byte has no byte refused: `wlen = 0` keeps it out of the phase of `TXD`. -/
theorem transact_result_ne_dataNack (a : BusAddr) {n : Byte} {s : State} (hn : n ≠ 0) (hh : s.hung = false) :
    (transact a [] n s).result ≠ .dataNack := by
  have hne : ¬(([] : List Byte) = [] ∧ n = 0) := fun h => hn h.2
  refine (transact_induct (P := fun t => Loaded a [] n t ∧ PhaseInv t ∧ t.result ≠ .dataNack) hne hh
    ⟨.beginTransaction a n s (by decide), phaseInv_beginTransaction a hne (by decide) s,
      (beginTransaction_result_ok s a hne).trans_ne (by decide)⟩
    fun t ⟨ho, hi, hr⟩ hh hp => ⟨ho.issue, hi.issue hh hp, fun hd => ?_⟩).2.2
  rcases issue_result hh hp with e | ⟨_, k, r, hk, hclass⟩
  · exact hr (e ▸ hd)
  · obtain rfl : k = .txd := classify_dataNack (hd ▸ hclass)
    simp only [PhaseInv, stepKind_txd hk] at hi
    exact toNat_ne_zero.mp hi.1 ho.wlen

/-! ## The results of the operations -/

/-- An `XACT` command in an idle block ends with the result of its transaction. -/
theorem exec_xact_result {i : Instr} {a : BusAddr} {p : List Byte} {n : Byte} {s t : State}
    (ho : xactOperands i = some (a, p, n)) (hs : s.Idle) (h : exec i s = .next t) :
    t.result = (transact a p n s.accept).result := by
  obtain rfl := Host.Outcome.next.inj ((exec_xact_idle ho hs).symm.trans h)
  exact respondXact_result _

theorem exec_xact_result_ne_invalidArgument {i : Instr} {a : BusAddr} {p : List Byte} {n : Byte} {s t : State}
    (ho : xactOperands i = some (a, p, n)) (hw : i.wf = true) (hi : ∀ b, i ≠ .xactInv b) (hs : s.Idle)
    (h : exec i s = .next t) : t.result ≠ .invalidArgument := by
  rw [exec_xact_result ho hs h]
  exact transact_result_ne_invalidArgument a (xactOperands_nonempty ho hw hi) hs.2

/-- Both transactions of a register read send a byte or read some. -/
theorem regrd_result_ne_invalidArgument (a : BusAddr) (r : Byte) {n : Byte} {s : State} (hn : n ≠ 0)
    (hh : s.hung = false) : (regrd a r n s).result ≠ .invalidArgument := by
  have hpointer : (pointerHalf a r n s).result ≠ .invalidArgument := by
    unfold pointerHalf
    split <;> exact transact_result_ne_invalidArgument a (by simp) hh
  unfold regrd readHalf
  split
  · exact hpointer
  · split_ifs with hend
    · exact hpointer
    · simp only [Bool.or_eq_true, not_or, Bool.not_eq_true] at hend
      exact transact_result_ne_invalidArgument a (fun h => hn h.2) hend.1

/-- Settles O36: only the empty transaction is invalid, and only a `TXD` is refused as data. -/
theorem resultsOfEachOperation : Obligations.ResultsOfEachOperation := by
  intro s t i hw hh h _
  refine ⟨fun hb => ⟨?_, ?_, ?_, ?_⟩, ?_, ?_⟩
  · rintro ⟨a, rfl⟩
    rw [exec_xact_result rfl ⟨hb, hh⟩ h, transact_empty a (s := s.accept) hh]
    simp
  · rintro ⟨a, p, rfl⟩
    exact exec_xact_result_ne_invalidArgument rfl hw (by simp) ⟨hb, hh⟩ h
  · rintro ⟨a, n, rfl⟩
    refine ⟨exec_xact_result_ne_invalidArgument rfl hw (by simp) ⟨hb, hh⟩ h, ?_⟩
    rw [exec_xact_result rfl ⟨hb, hh⟩ h]
    exact transact_result_ne_dataNack a (bne_iff_ne.mp hw) hh
  · rintro ⟨a, p, n, rfl⟩
    exact exec_xact_result_ne_invalidArgument rfl hw (by simp) ⟨hb, hh⟩ h
  · rintro ⟨a, r, vs, rfl⟩
    cases h
    exact transact_result_ne_invalidArgument a (by simp) hh
  · rintro ⟨a, r, n, rfl⟩
    cases h
    exact regrd_result_ne_invalidArgument a r (bne_iff_ne.mp hw) hh

/-! ## A finite `WAIT_LIMIT` (60_exceptions.md R171, R183) -/

/-- The block has the parameters `c` and does not hang. -/
structure Answering (c : Params) (s : State) : Prop where
  params : s.params = c
  hung : s.hung = false

section
variable {c : Params} {s : State} (hc : c.waitLimit ≠ .inf)
include hc

/-- A wait that is given up after `WAIT_LIMIT` polls does not hang. -/
theorem Answering.issue (h : Answering c s) (hp : s.phase ≠ .idle) : Answering c (issue s) := by
  rcases Phase.waits_or_releases hp with hw | hr
  · obtain ⟨k, d, ⟨rx, hn, e⟩ | ⟨r, _, _, hn, e⟩ | ⟨hl, _, _⟩⟩ := issue_waits h.hung hw
    · exact e ▸ ⟨(State.afterPass_params _ rx).trans h.params, (State.afterPass_hung _ rx).trans hn⟩
    · exact e ▸ ⟨h.params, hn⟩
    · exact absurd (h.params ▸ hl) hc
  · obtain ⟨k, e⟩ := issue_releases h.hung hr
    exact e ▸ ⟨h.params, h.hung⟩

theorem Answering.transact (h : Answering c s) (a : BusAddr) (p : List Byte) (n : Byte) :
    Answering c (transact a p n s) := by
  have hbegin : Answering c (s.beginTransaction a p n) := ⟨by simpa using h.params, by simpa using h.hung⟩
  by_cases hne : p = [] ∧ n = 0
  · obtain ⟨rfl, rfl⟩ := hne
    rwa [transact_empty a h.hung]
  · exact transact_induct hne h.hung hbegin fun t ht _ hp => ht.issue hc hp

theorem Answering.regrd (h : Answering c s) (a : BusAddr) (r n : Byte) : Answering c (regrd a r n s) := by
  have hpointer : Answering c (pointerHalf a r n s) := by
    unfold pointerHalf
    split <;> exact h.transact hc a _ _
  have hhalf : Answering c { pointerHalf a r n s with pstep := (pointerHalf a r n s).pstep.readHalf } :=
    ⟨hpointer.params, hpointer.hung⟩
  rw [Machine.regrd, readHalf_eq a n hpointer.hung]
  split
  · exact hhalf.transact hc a [] n
  · exact hpointer

theorem Answering.init (h : Answering c s) : Answering c (init s).2 :=
  init_induct (fun _ h => h.params) (fun _ _ _ _ h => ⟨h.params, h.hung⟩) (fun _ a _ _ _ h => h.transact hc a _ 0)
    (fun _ a r n h => h.regrd hc a r n) h

theorem Answering.poll_hung (h : Answering c s) : (poll s).hung = false := by
  have hbegin : Answering c { s with pstep := .poll } := ⟨h.params, h.hung⟩
  rw [Machine.poll_hung]
  exact (hbegin.regrd hc _ _ _).hung

theorem Answering.finishInit_hung {r : Bool × State} (h : Answering c r.2) : (finishInit r).hung = false := by
  have hactive : Answering c (activate r.2) := ⟨h.params, h.hung⟩
  cases hr : r.1
  · rw [finishInit_false h.hung hr, respondTick_hung_eq]
    exact h.hung
  · simp only [finishInit, h.hung, hr, Bool.false_eq_true, ↓reduceIte]
    split <;> rw [respondTick_hung_eq]
    · exact hactive.poll_hung hc
    · exact hactive.hung

theorem Answering.tickBody_hung (h : Answering c s) : (tickBody s).hung = false := by
  unfold tickBody
  split
  · split
    · rw [respondTick_hung_eq]
      exact h.hung
    · exact (h.init hc).finishInit_hung hc
  · rw [respondTick_hung_eq]
    exact h.poll_hung hc

end

/-- A `TICK` that does not hang is answered. -/
theorem tick_responds {s : State} (hs : s.Idle) (hh : (tickBody s.beginTick).hung = false) :
    ∃ t bytes, exec .tick s = .next t ∧ t.Idle ∧ t.responses = s.responses ++ [bytes] :=
  ⟨_, _, exec_tick_idle hs, tick_idle hs (exec_tick_idle hs) hh,
    (tickEnds_tickBody s.beginTick).resolve_left (by simp [hh])⟩

/-- So is an `XACT` command. -/
theorem xact_responds {i : Instr} {a : BusAddr} {p : List Byte} {n : Byte} {s : State}
    (ho : xactOperands i = some (a, p, n)) (hs : s.Idle) (hh : (transact a p n s.accept).hung = false) :
    ∃ t bytes, exec i s = .next t ∧ t.Idle ∧ t.responses = s.responses ++ [bytes] := by
  refine ⟨_, (transact a p n s.accept).xactResponse, exec_xact_idle ho hs, respondXact_idle (by simpa using hh), ?_⟩
  rw [respondXact_of_not_hung hh]
  simp

/-- Settles O37: with a finite `WAIT_LIMIT` no bus step hangs, and a command that does not hang is answered. -/
theorem finiteWaitAlwaysResponds : Obligations.FiniteWaitAlwaysResponds := by
  intro s i n pos hl _ hi hs
  have hc : s.params.waitLimit ≠ .inf := by simp [hl]
  rcases hi with rfl | hi
  · exact tick_responds hs (Answering.tickBody_hung hc ⟨rfl, hs.2⟩)
  · obtain ⟨⟨a, p, m⟩, ho⟩ := Option.isSome_iff_exists.mp hi
    exact xact_responds ho hs (Answering.transact hc (s := s.accept) ⟨rfl, hs.2⟩ a p m).hung

end Sys2Proof.Machine

/-! No output depends on what the spec calls unspecified (70_reset_and_hazards.md R201): two blocks that agree in the
rest go on agreeing, first bus step by bus step and move by move, then command by command. -/

namespace Sys2Proof.Machine

open Config

/-! ## Bus steps -/

section
variable {s t : State} (h : Agree s t)
include h

theorem Agree.replyTo (k : StepKind) (d : Byte) : s.replyTo k d = t.replyTo k d := by
  simp only [State.replyTo, h.params, h.env, h.free]

theorem Agree.busWait (k : StepKind) (d : Byte) : Agree (s.busWait k d) (t.busWait k d) :=
  { h with
    hung := by simp [h.hung, h.replyTo]
    trace := by simp [h.trace, h.replyTo]
    env := by simp [h.env, h.params, h.free]
    free := by simp [h.free] }

theorem Agree.raise (c : Result) : Agree (s.raise c) (t.raise c) := { h with result := rfl, phase := rfl }

/-- Blocks that agree see the same reply, so a waiting step takes the same branch in both. -/
theorem Agree.waitingStep {k : StepKind} {d : Byte} {f g : Byte → State → State}
    (hf : ∀ rx, Agree (f rx (s.busWait k d)) (g rx (t.busWait k d))) :
    Agree (s.waitingStep k d f) (t.waitingStep k d g) := by
  simp only [State.waitingStep, ← h.hung, ← h.replyTo]
  split
  · exact h
  split
  · split
    · exact hf _
    · exact (h.busWait k d).raise _
  · exact (h.busWait k d).raise _
  · exact h.busWait k d
  · exact h.busWait k d

theorem Agree.releaseStep (k : StepKind) : Agree (s.releaseStep k) (t.releaseStep k) := by
  simp only [State.releaseStep, ← h.hung]
  split
  · exact h
  · exact { h with phase := rfl, trace := by simp [h.trace], env := by simp [h.env, h.params] }

/-- The engine reads `WBUF` below `WLEN` only (41_transaction.md R115). -/
theorem Agree.wbufAt (hb : s.busy = true) (hi : s.idx.toNat < s.wlen.toNat) : s.wbufAt s.idx = t.wbufAt t.idx := by
  obtain ⟨_, hw, _, hx, hbuf⟩ := h.operands hb
  have hget := congrArg (·[s.idx.toNat]?) hbuf
  simp only [List.getElem?_take_of_lt hi] at hget
  simp only [State.wbufAt, List.getD_eq_getElem?_getD, ← hx, hget]

theorem Agree.stepKind (hb : s.busy = true) : s.stepKind = t.stepKind := by
  obtain ⟨_, _, hr, hx, _⟩ := h.operands hb
  simp only [State.stepKind, h.phase, hr, hx]

theorem Agree.stepData (hb : s.busy = true) (hi : PhaseInv s) : s.stepData = t.stepData := by
  obtain ⟨ha, _⟩ := h.operands hb
  simp only [State.stepData, ← h.phase, ← ha]
  split
  · rfl
  · rename_i hp
    simp only [PhaseInv, hp] at hi
    obtain ⟨_, _, _, hlt⟩ := hi
    exact h.wbufAt hb hlt
  · rfl
  · rfl

/-- A received byte is stored at the end of the bytes received, in both. -/
theorem Agree.storeReceived (rx : Byte) (hb : s.busy = true) (hi : s.idx = s.rcount) (hl : s.rcount.toNat < 255) :
    Agree (s.storeReceived rx) (t.storeReceived rx) := by
  obtain ⟨ha, hw, hr, hx, hbuf⟩ := h.operands hb
  have hi' : t.idx = t.rcount := by rw [← hx, hi, h.rcount]
  exact { h with
    rcount := by simp [h.rcount]
    received := by rw [received_store rx hi hl, received_store rx hi' (h.rcount ▸ hl), h.received]
    operands := fun _ => ⟨ha, hw, hr, congrArg (· + 1) hx, hbuf⟩ }

theorem Agree.setPhase {i j : Byte} {p q : Phase} (hb : s.busy = true) (hij : i = j) (hpq : p = q) :
    Agree { s with idx := i, phase := p } { t with idx := j, phase := q } := by
  obtain ⟨ha, hw, hr, _, hbuf⟩ := h.operands hb
  exact { h with phase := hpq, operands := fun _ => ⟨ha, hw, hr, hij, hbuf⟩ }

/-- The effect of a passing bus step. -/
theorem Agree.afterPass (rx : Byte) (hb : s.busy = true) (hi : PhaseInv s) :
    Agree (s.afterPass rx) (t.afterPass rx) := by
  obtain ⟨_, hw, hr, hx, _⟩ := h.operands hb
  cases hp : s.phase <;> have hp' := h.phase ▸ hp <;> simp only [PhaseInv, hp] at hi <;>
    simp only [State.afterPass, hp, hp']
  case wStart | rStart => exact { h with phase := rfl }
  case wAddr | rAddr => exact h.setPhase hb rfl rfl
  case wData => exact h.setPhase hb (congrArg (· + 1) hx) (by simp only [afterTxd, hw, hr, hx])
  case rData =>
    obtain ⟨_, _, hc, hlt⟩ := hi
    have hl : s.rcount.toNat < 255 := by rw [← hc]; have := s.rlen.isLt; omega
    rw [← hx, ← hr]
    exact { h.storeReceived rx hb hc hl with phase := rfl }
  all_goals exact h

/-- The bus step of a phase. -/
theorem Agree.issue (hb : s.busy = true) (hp : s.phase ≠ .idle) (hi : PhaseInv s) : Agree (issue s) (issue t) := by
  rcases Phase.waits_or_releases hp with hw | hr
  · obtain ⟨k, hk⟩ := exists_stepKind hp
    obtain ⟨f, e, hf⟩ := issue_eq_waitingStep_stepKind hw hk
    obtain ⟨g, e', hg⟩ := issue_eq_waitingStep_stepKind (h.phase ▸ hw) (h.stepKind hb ▸ hk)
    rw [e, e', ← h.stepData hb hi]
    rw [← h.stepData hb hi] at hg
    refine h.waitingStep fun rx => ?_
    rw [hf, hg]
    exact (h.busWait k _).afterPass rx hb hi
  · rcases hr with hr | hr <;> have hr' := h.phase ▸ hr <;> simp only [Machine.issue, hr, hr'] <;>
      exact h.releaseStep _

theorem Agree.xactResponse : s.xactResponse = t.xactResponse := by
  simp only [State.xactResponse, h.result, h.rcount, h.received]

theorem Agree.tickResponse : s.tickResponse = t.tickResponse := by
  simp only [State.tickResponse, State.tickByte0, h.calibReset, ← h.sampleValid, h.pclass, h.pstate, h.ident]
  split
  · rw [h.sample ‹_›]
  · rfl

end

/-! ## Between two transactions -/

theorem resumeInit_afterIdent_of_ok {s : State} (hh : s.hung = false) (hr : s.result = .ok) :
    resumeInit (afterIdent s) =
      if s.params.fallthrough then beginPoll (identified s) else respondTick (identified s) := by
  simp [resumeInit, afterIdent, hh, hr, identified]

theorem afterIdent_of_failed {s : State} (hh : s.hung = false) (hr : s.result ≠ .ok) :
    afterIdent s = initFails s := by simp [afterIdent, hh, hr]

/-- Agreement of two blocks in no transaction: the operand registers, which a transaction start loads, may differ while
a command is in progress too (70_reset_and_hazards.md R201, 41_transaction.md R110). -/
structure AgreeBetween (s t : State) : Prop where
  busy : s.busy = t.busy
  released : Agree { s with busy := false } { t with busy := false }

theorem Agree.between {s t : State} (h : Agree s t) : AgreeBetween s t where
  busy := h.busy
  released := { h with busy := rfl, operands := by simp }

section
variable {s t : State} (h : AgreeBetween s t)
include h

theorem AgreeBetween.setPstep (q : PStep) : AgreeBetween { s with pstep := q } { t with pstep := q } where
  busy := h.busy
  released := { h.released with pstep := rfl }

theorem AgreeBetween.setSettle {m n : Nat} (hmn : m = n) :
    AgreeBetween { s with settle := m } { t with settle := n } where
  busy := h.busy
  released := { h.released with settle := hmn }

theorem AgreeBetween.params : s.params = t.params := h.released.params

/-- A transaction start loads every operand register. -/
theorem AgreeBetween.loadTransaction (a : BusAddr) {p : List Byte} (n : Byte) (hl : p.length ≤ maxLen) :
    Agree (s.loadTransaction a p n) (t.loadTransaction a p n) := by
  have hw : (BitVec.ofNat 8 p.length).toNat = p.length := Nat.mod_eq_of_lt (Nat.lt_succ_of_le hl)
  have hbuf (old : Vector Byte 255) : (loadBuffer old p).toList.take p.length = p := loadBuffer_take old p hl
  exact { h.released with
    busy := h.busy
    rcount := rfl
    received := by simp [State.received]
    result := rfl
    operands := fun _ => ⟨rfl, rfl, rfl, rfl, by simp [hw, hbuf]⟩ }

theorem AgreeBetween.beginTransaction {a a' : BusAddr} {p p' : List Byte} (ha : a = a') (hp : p = p') (n : Byte)
    (hl : p.length ≤ maxLen) : Agree (s.beginTransaction a p n) (t.beginTransaction a' p' n) := by
  subst ha hp
  have hload := h.loadTransaction a n hl
  unfold State.beginTransaction
  split_ifs
  · exact { hload with result := rfl }
  · exact { hload with phase := rfl }
  · exact { hload with phase := rfl }

theorem AgreeBetween.beginRead {a a' : BusAddr} (ha : a = a') (r n : Byte) :
    Agree (s.beginRead a r n) (t.beginRead a' r n) := by
  simp only [State.beginRead, ← h.params]
  split <;> exact h.beginTransaction ha rfl _ (by simp [maxLen])

theorem AgreeBetween.addrPrimary : s.params.addrPrimary = t.params.addrPrimary := congrArg (·.addrPrimary) h.params

theorem AgreeBetween.beginPoll : Agree (beginPoll s) (beginPoll t) := (h.setPstep .poll).beginRead h.addrPrimary _ _

theorem AgreeBetween.beginInit : Agree (beginInit s) (beginInit t) :=
  (h.setPstep .redirect).beginTransaction (congrArg (fun c : Params => c.addrSecondary) h.params)
    (congrArg (fun c : Params => [c.redirectReg, c.redirectVal]) h.params) 0 (by simp [maxLen])

theorem AgreeBetween.respond {b b' : List Byte} (hb : b = b') : Agree (s.respond b) (t.respond b') :=
  { h.released with responses := congrArg₂ (· ++ [·]) h.released.responses hb }

theorem AgreeBetween.respondTick (hh : s.hung = false) : Agree (respondTick s) (respondTick t) := by
  rw [respondTick_of_not_hung hh, respondTick_of_not_hung (s := t) (h.released.hung.symm.trans hh)]
  exact h.respond h.released.tickResponse

/-- `INIT` returns false and the `TICK` ends (43_identification.md R147). -/
theorem AgreeBetween.initFails (hh : s.hung = false) :
    Agree (resumeInit (initFails s)) (resumeInit (initFails t)) :=
  ((h.setPstep .idle).setSettle (congrArg (fun c : Params => c.settleTicks) h.params)).respondTick hh

/-- `INIT` has read the identity (43_identification.md R146 to R149). -/
theorem AgreeBetween.afterIdent (hh : s.hung = false) :
    Agree (resumeInit (afterIdent s)) (resumeInit (afterIdent t)) := by
  have hh' : t.hung = false := h.released.hung.symm.trans hh
  have hrec : s.received = t.received := h.released.received
  have hres : s.result = t.result := h.released.result
  by_cases hr : s.result = .ok
  · have hid : AgreeBetween (identified s) (identified t) :=
      ⟨h.busy, { h.released with
        ident := congrArg identOf hrec
        pclass := congrArg₂ (fun c d => classifyIdent c (identOf d)) h.params hrec
        pstep := rfl
        pstate := rfl
        calibReset := rfl }⟩
    rw [resumeInit_afterIdent_of_ok hh hr, resumeInit_afterIdent_of_ok hh' (hres ▸ hr), ← h.params]
    split
    · exact hid.beginPoll
    · exact hid.respondTick hh
  · rw [afterIdent_of_failed hh hr, afterIdent_of_failed hh' (hres ▸ hr)]
    exact h.initFails hh

/-- `POLL` has ended: with `OK` its read has filled the sample (43_identification.md R150, R151). -/
theorem AgreeBetween.pollEnd (hh : s.hung = false) (hc : s.result = .ok → s.rcount = sampleLen) :
    Agree (Machine.respondTick (Machine.pollEnd s)) (Machine.respondTick (Machine.pollEnd t)) := by
  have hh' : t.hung = false := h.released.hung.symm.trans hh
  have hrec : s.received = t.received := h.released.received
  have hres : s.result = t.result := h.released.result
  have hset := h.setPstep .idle
  by_cases hr : s.result = .ok
  · have hl : s.received.length = 6 := by rw [received_length, hc hr]; rfl
    have hsample : (loadBuffer s.sample s.received).toList = (loadBuffer t.sample t.received).toList := by
      rw [loadBuffer_full _ hl, loadBuffer_full _ (hrec ▸ hl), hrec]
    have htaken : AgreeBetween (sampleTaken s) (sampleTaken t) :=
      ⟨h.busy, { hset.released with sampleValid := rfl, sample := fun _ => Vector.toList_inj.mp hsample }⟩
    rw [pollEnd_of_ok hh hr, pollEnd_of_ok hh' (hres ▸ hr)]
    exact htaken.respondTick hh
  · have hdrop : AgreeBetween (State.dropToUninitialized { s with pstep := .idle })
        (State.dropToUninitialized { t with pstep := .idle }) :=
      ⟨h.busy, { hset.released with
        ident := rfl
        pstate := rfl
        pclass := rfl
        settle := congrArg (fun c : Params => c.settleTicks) h.params
        sampleValid := rfl
        sample := by simp
        calibReset := rfl
        free := congrArg (· + 6) h.released.free }⟩
    rw [pollEnd_of_failed hh hr, pollEnd_of_failed hh' (hres ▸ hr)]
    exact hdrop.respondTick hh

end

/-- A report read that has ended `OK` has received its six bytes (10_state.md R15, 43_identification.md R150). -/
theorem BusyInv.rcount_of_polled {s : State} (hi : BusyInv s) (hp : s.phase = .idle)
    (hq : s.pstep = .pollRd ∨ s.pstep = .poll ∧ s.halfRead = false) (hr : s.result = .ok) : s.rcount = sampleLen := by
  have hended : s.result = .ok → s.rcount = s.rlen := by simpa only [PhaseInv, hp] using hi.phaseInv
  rw [hended hr]
  refine hi.pollLength (hq.imp_right fun ⟨hpoll, hhalf⟩ => ⟨hpoll, ?_⟩)
  cases hm : s.params.regReadMode
  · rfl
  · simp [State.halfRead, hm, hr] at hhalf

section
variable {s t : State} (h : Agree s t)
include h

theorem Agree.respondXact (hh : s.hung = false) : Agree (respondXact s) (respondXact t) := by
  rw [respondXact_of_not_hung hh, respondXact_of_not_hung (h.hung ▸ hh)]
  exact h.between.respond h.xactResponse

theorem Agree.halfRead : s.halfRead = t.halfRead := by simp only [State.halfRead, h.params, h.result]

/-- The sequencer's move between two transactions. -/
theorem Agree.resume (hi : BusyInv s) (hs : Between s) : Agree (resume s) (resume t) := by
  have hh := hs.hung
  have hb := h.between
  have hset (q : PStep) := hb.setPstep q
  cases hq : s.pstep <;> have hq' := h.pstep ▸ hq <;>
    simp only [Machine.resume, hq, hq', ← h.result, ← h.halfRead]
  case idle => exact h.respondXact hh
  case redirect | hs1 =>
    split
    · exact hb.initFails hh
    · exact (hset _).beginTransaction hb.addrPrimary rfl 0 (by simp [maxLen])
  case hs2 =>
    split
    · exact hb.initFails hh
    · exact (hset _).beginRead hb.addrPrimary _ _
  case ident =>
    split
    · exact (hset _).beginTransaction hb.addrPrimary rfl _ (by simp [maxLen])
    · exact hb.afterIdent hh
  case identRd => exact hb.afterIdent hh
  case poll =>
    split
    · exact (hset _).beginTransaction hb.addrPrimary rfl _ (by simp [maxLen])
    · exact hb.pollEnd hh (hi.rcount_of_polled hs.phase (.inr ⟨hq, Bool.eq_false_of_not_eq_true ‹_›⟩))
  case pollRd => exact hb.pollEnd hh (hi.rcount_of_polled hs.phase (.inl hq))

/-! ## Runs of a busy block -/

theorem Agree.busyStep (hi : Inv s) {u : State} (hs : BusyStep s u) : ∃ v, BusyStep t v ∧ Agree u v := by
  obtain ⟨hb, hh, hstep⟩ := hs
  have hb' := h.busy ▸ hb
  have hh' := h.hung ▸ hh
  have hbusy := hi.busyInv hb
  by_cases hp : s.phase = .idle
  · obtain rfl := Host.Outcome.next.inj ((step_resume hb hh hp).symm.trans hstep)
    exact ⟨_, ⟨hb', hh', step_resume hb' hh' (h.phase ▸ hp)⟩, h.resume hbusy ⟨hb, hh, hp⟩⟩
  · obtain rfl := Host.Outcome.next.inj ((step_issue hb hh hp).symm.trans hstep)
    exact ⟨_, ⟨hb', hh', step_issue hb' hh' (h.phase ▸ hp)⟩, h.issue hb hp hbusy.phaseInv⟩

theorem Agree.busyRun (hi : Inv s) {u : State} (hs : BusyRun s u) : ∃ v, BusyRun t v ∧ Agree u v := by
  induction hs with
  | refl => exact ⟨t, .refl, h⟩
  | tail hrun hstep ih =>
    obtain ⟨v, hv, huv⟩ := ih
    obtain ⟨w, hw, huw⟩ := huv.busyStep (hi.busyRun hrun) hstep
    exact ⟨w, hv.tail hw, huw⟩

end

/-- A run of a command is over: the block has responded, or it hangs. -/
def Over (s : State) : Prop := s.busy = true → s.hung = true

theorem Over.not_busyStep {s t : State} (h : Over s) : ¬BusyStep s t := fun ⟨hb, hh, _⟩ => by
  simp [h hb] at hh

theorem Over.eq_of_busyRun {s t : State} (h : Over s) (hr : BusyRun s t) : t = s := by
  rcases hr.cases_head with rfl | ⟨_, hs, _⟩
  · rfl
  · exact absurd hs h.not_busyStep

theorem busyStep_rightUnique : Relator.RightUnique BusyStep := fun _ _ _ h h' =>
  Host.Outcome.next.inj (h.2.2.symm.trans h'.2.2)

/-- A run of a busy block has one end. -/
theorem BusyRun.eq_of_over {s u v : State} (hu : BusyRun s u) (hv : BusyRun s v) (ou : Over u) (ov : Over v) :
    u = v := by
  rcases Relation.ReflTransGen.total_of_right_unique busyStep_rightUnique hu hv with hr | hr
  · exact (ou.eq_of_busyRun hr).symm
  · exact ov.eq_of_busyRun hr

/-- Two runs to their ends, from blocks that agree. -/
theorem Agree.of_busyRun {s t u v : State} (h : Agree s t) (hi : Inv s) (hu : BusyRun s u) (hv : BusyRun t v)
    (ou : Over u) (ov : Over v) : Agree u v := by
  obtain ⟨w, hw, huw⟩ := h.busyRun hi hu
  have ow : Over w := fun hb => huw.hung ▸ ou (huw.busy ▸ hb)
  exact hw.eq_of_over hv ow ov ▸ huw

theorem over_respondXact (s : State) : Over (respondXact s) := by
  unfold Over respondXact
  split
  · exact fun _ => ‹_›
  · simp

theorem over_respondTick (s : State) : Over (respondTick s) := by
  unfold Over respondTick
  split
  · exact fun _ => ‹_›
  · simp

theorem over_tickBody (s : State) : Over (tickBody s) := by
  rcases tickBody_hangs_or_responds s with hh | ⟨u, hu⟩
  · exact fun _ => hh
  · exact hu ▸ over_respondTick u

/-! ## Host commands -/

section
variable {s t : State} (h : Agree s t)
include h

theorem Agree.present (l : List Byte) : Agree { s with inbox := l } { t with inbox := l } := { h with inbox := rfl }

theorem Agree.idle (hs : s.Idle) : t.Idle := ⟨h.busy ▸ hs.1, h.hung ▸ hs.2⟩

/-- A reserved byte (30_encoding.md R67). -/
theorem Agree.rejectReserved : Agree s.rejectReserved t.rejectReserved :=
  { h with
    result := rfl
    rcount := rfl
    received := by simp [State.received, State.rejectReserved]
    responses := congrArg (· ++ [[1, 0]]) h.responses }

theorem Agree.accept : AgreeBetween s.accept t.accept where
  busy := rfl
  released := h.between.released

theorem Agree.beginTick : AgreeBetween s.beginTick t.beginTick where
  busy := rfl
  released := { h.between.released with
    sampleValid := rfl
    sample := by simp
    calibReset := rfl
    free := congrArg (· + 6) h.free }

theorem Agree.accepted (a : BusAddr) {p : List Byte} (n : Byte) (hl : p.length ≤ maxLen) :
    Agree (accepted a p n s) (accepted a p n t) := h.accept.beginTransaction rfl rfl n hl

theorem Agree.acceptedTick (hs : s.Idle) : Agree (acceptedTick s) (acceptedTick t) := by
  simp only [Machine.acceptedTick, ← h.pstate, ← h.settle]
  split
  · split
    · exact (h.beginTick.setSettle rfl).respondTick hs.2
    · exact h.beginTick.beginInit
  · exact h.beginTick.beginPoll

/-- A host command is the run of its steps from its acceptance, so it ends alike. -/
theorem Agree.command {i : Instr} {bs rest : List Byte} {u : State} (hi : Inv s) (hi' : Inv t) (hs : s.Idle)
    (hd : decodeHost bs = .command i rest) (hu : exec i s = .next u) : ∃ v, exec i t = .next v ∧ Agree u v := by
  have hs' := h.idle hs
  rcases decodeHost_command hd with rfl | ⟨a, p, n, ho, hl⟩
  · obtain rfl := Host.Outcome.next.inj ((exec_tick_idle hs).symm.trans hu)
    exact ⟨_, exec_tick_idle hs', (h.acceptedTick hs).of_busyRun (inv_acceptedTick hi hs) (busyRun_tick s hs)
      (busyRun_tick t hs') (over_tickBody _) (over_tickBody _)⟩
  · obtain rfl := Host.Outcome.next.inj ((exec_xact ho s).symm.trans hu)
    have run {r : State} (hr : Inv r) (hri : r.Idle) :
        BusyRun (Machine.accepted a p n r) (directTransaction a p n r) ∧ Over (directTransaction a p n r) := by
      obtain ⟨hp, hq, _⟩ := hr.idleWhenFree hri.1
      refine ⟨busyRun_directTransaction a n hri hp hq hl, ?_⟩
      rw [directTransaction, whenIdle_idle hri]
      exact over_respondXact _
    obtain ⟨hrun, hover⟩ := run hi hs
    obtain ⟨hrun', hover'⟩ := run hi' hs'
    exact ⟨_, exec_xact ho t, (h.accepted a n hl).of_busyRun (inv_accepted hi hs a n hl) hrun hrun' hover hover'⟩

end

/-- Settles O60: a busy block's step keeps the agreement, and a host command is a run of such steps to its end. -/
theorem nothingDependsOnUnspecifiedValues : Obligations.NothingDependsOnUnspecifiedValues := by
  intro s s' t hi hi' h hstep
  cases hb : s.busy
  case true =>
    cases hh : s.hung
    case true =>
      rw [step_hung hh] at hstep
      cases hstep
      exact ⟨s', step_hung (h.hung ▸ hh), h⟩
    case false =>
      obtain ⟨t', ⟨_, _, ht'⟩, ha⟩ := h.busyStep hi ⟨hb, hh, hstep⟩
      exact ⟨t', ht', ha⟩
  case false =>
    have hs : s.Idle := ⟨hb, (hi.idleWhenFree hb).2.2⟩
    have hs' := h.idle hs
    cases hd : decodeHost s.inbox <;> have hd' := h.inbox ▸ hd
    case command i rest =>
      rw [step_command hs hd] at hstep
      rw [step_command hs' hd']
      exact (h.present rest).command (hi.present rest) (hi'.present rest) hs hd hstep
    case reserved b rest =>
      rw [step_reserved hs hd] at hstep
      cases hstep
      exact ⟨_, step_reserved hs' hd', (h.present rest).rejectReserved⟩
    case incomplete =>
      rw [step_incomplete hs hd] at hstep
      cases hstep
      exact ⟨s', step_incomplete hs' hd', h⟩

end Sys2Proof.Machine

/-! The state after reset, the parameters, and the ticks that pass while the settle counter runs down
(70_reset_and_hazards.md R200 to R203). -/

namespace Sys2Proof.Machine

open Config

/-! ## Every step (70_reset_and_hazards.md R203) -/

theorem issue_params (s : State) : (issue s).params = s.params :=
  issue_keeps State.params (by simp) (by simp) (by simp) (by simp) (by simp) s

theorem respondTick_params (s : State) : (respondTick s).params = s.params :=
  respondTick_keeps State.params (fun _ _ h _ _ => h) s

theorem pollEnd_params (s : State) : (pollEnd s).params = s.params :=
  pollEnd_keeps State.params (fun _ _ h _ _ => congrArg (·.1) h) s

theorem beginPoll_params (s : State) : (beginPoll s).params = s.params := State.beginRead_params ..

theorem afterIdent_params (s : State) : (afterIdent s).2.params = s.params := by
  unfold afterIdent
  split_ifs <;> rfl

theorem resumeInit_params (r : Bool × State) : (resumeInit r).params = r.2.params := by
  unfold resumeInit
  split_ifs
  · exact beginPoll_params _
  · exact respondTick_params _
  · exact respondTick_params _

theorem resume_params (s : State) : (resume s).params = s.params := by
  have hfails : (resumeInit (initFails s)).params = s.params := resumeInit_params _
  have hident : (resumeInit (afterIdent s)).params = s.params :=
    (resumeInit_params _).trans (afterIdent_params s)
  have hpoll : (respondTick (pollEnd s)).params = s.params := (respondTick_params _).trans (pollEnd_params s)
  cases hq : s.pstep <;> simp only [resume, hq]
  case idle => exact respondXact_params s
  case redirect | hs1 =>
    split
    · exact hfails
    · exact State.beginTransaction_params ..
  case hs2 =>
    split
    · exact hfails
    · exact State.beginRead_params ..
  case ident =>
    split
    · exact State.beginTransaction_params ..
    · exact hident
  case identRd => exact hident
  case poll =>
    split
    · exact State.beginTransaction_params ..
    · exact hpoll
  case pollRd => exact hpoll

theorem directTransaction_params (a : BusAddr) (p : List Byte) (n : Byte) (s : State) :
    (directTransaction a p n s).params = s.params := by
  unfold directTransaction State.whenIdle
  split <;> simp

/-- Settles O4: a busy block makes a bus step or a move of the sequencer, an idle one runs a host command, and none of
these writes the parameters. -/
theorem everyStepGoesOnWithItsParameters : Obligations.EveryStepGoesOnWithItsParameters := by
  intro s
  cases hh : s.hung
  case true => exact ⟨s, step_hung hh, rfl⟩
  case false =>
    cases hb : s.busy
    case true =>
      by_cases hp : s.phase = .idle
      · exact ⟨_, step_resume hb hh hp, resume_params s⟩
      · exact ⟨_, step_issue hb hh hp, issue_params s⟩
    case false =>
      have hs : s.Idle := ⟨hb, hh⟩
      cases hd : decodeHost s.inbox
      case command i rest =>
        rw [step_command hs hd]
        rcases decodeHost_command hd with rfl | ⟨a, p, n, ho, _⟩
        · exact ⟨_, rfl, (sequencerKeeps_tick 0 0 { s with inbox := rest }).params⟩
        · exact ⟨_, exec_xact ho _, directTransaction_params a p n _⟩
      case reserved b rest => exact ⟨_, step_reserved hs hd, rfl⟩
      case incomplete => exact ⟨s, step_incomplete hs hd, rfl⟩

/-! ## Settling (70_reset_and_hazards.md R202) -/

/-- Settles O48: by induction on the ticks, each of which counts `settle` down and responds (43_identification.md
R142). -/
theorem settleTicksPassWithoutBusActivity : Obligations.SettleTicksPassWithoutBusActivity := by
  intro k
  induction k with
  | zero => exact fun s hs hp _ _ _ _ => ⟨s, rfl, rfl, rfl, by simp, hs, hp⟩
  | succ k ih =>
    intro s hs hp hc hi hk hin
    have hd : decodeHost s.inbox = .command .tick (List.replicate k 0x80) := by rw [hin]; rfl
    obtain ⟨u, hu, hueq⟩ := settleTickOnlyCountsDown { s with inbox := List.replicate k 0x80 } hs hp
      (Nat.zero_lt_of_lt hk) hc hi
    have hstep : Sys2Proof.core.step s = .next u := (step_command hs hd).trans hu
    have hus : u.settle = s.settle - 1 := by rw [hueq]
    obtain ⟨t, ht, htrace, hset, hresp, hidle, hpt⟩ := ih u (by rw [hueq]; exact hs) (by rw [hueq]; exact hp)
      (by rw [hueq]; exact hc) (by rw [hueq]; exact hi) (by rw [hus]; omega) (by rw [hueq])
    refine ⟨t, ?_, ?_, ?_, ?_, hidle, hpt⟩
    · simp only [Host.Core.run, hstep, ht]
    · rw [htrace, hueq]
    · rw [hset, hus]; omega
    · rw [hresp, hueq]
      simp [List.replicate_succ]

/-! ## Reset (70_reset_and_hazards.md R200, R201) -/

/-- The reset event changes a peripheral's selection and pointer, not its registers. -/
theorem State.startEnv0_registerAt (s : State) (k : Nat) (x : Byte) :
    s.startEnv0.registerAt k x = s.registerAt k x := by
  cases hr : s.env.ref with
  | none => simp [State.registerAt, State.peripherals, hr]
  | some e => cases he : e.peripherals[k]? <;> simp [State.registerAt, State.peripherals, hr, Env0.powerUp, he]

/-- `ENV0` starts with the bus free and nothing selected. -/
theorem Env0.powerUp_released (n : Nat) (e : Env0) :
    (e.powerUp n).owned = false ∧ ∀ p ∈ (e.powerUp n).peripherals, p.sel = .none := by
  refine ⟨rfl, fun p hp => ?_⟩
  obtain ⟨i, hi, rfl⟩ := List.mem_mapIdx.mp hp
  rfl

/-- The reset event issues no bus step and leaves what is not a register of the block. -/
theorem State.powerCycle_keeps (t : State) :
    t.powerCycle.trace = t.trace ∧ t.powerCycle.params = t.params ∧ t.powerCycle.env.script = t.env.script ∧
      t.powerCycle.inbox = t.inbox ∧ t.powerCycle.responses = t.responses ∧
      ∀ k x, t.powerCycle.registerAt k x = t.registerAt k x :=
  ⟨rfl, rfl, rfl, rfl, rfl, t.blockReset.startEnv0_registerAt⟩

/-- Settles O1: the reset event is the reset state with the parameters, the environment and the record kept, and then
the start values of `ENV0`. -/
theorem resetLeavesSpecifiedValues : Obligations.ResetLeavesSpecifiedValues := by
  refine ⟨⟨rfl, rfl, rfl⟩, fun s t hs => ?_⟩
  have hkeeps (e : s = t.powerCycle) := e ▸ t.powerCycle_keeps
  rcases hs with rfl | rfl
  · exact ⟨rfl, rfl, rfl, rfl, rfl, ⟨rfl, rfl⟩, rfl, rfl, rfl, rfl, rfl, rfl, rfl, nofun, hkeeps⟩
  · refine ⟨rfl, rfl, rfl, rfl, rfl, ⟨rfl, rfl⟩, rfl, rfl, rfl, rfl, rfl, rfl, rfl, fun e he => ?_, hkeeps⟩
    obtain ⟨r, _, rfl⟩ := Option.map_eq_some_iff.mp he
    exact Env0.powerUp_released _ r

/-- Settles O2: at reset the block is idle and the sequencer `Uninitialized`, with the settle counter full. -/
theorem invHoldsAtReset : Obligations.InvHoldsAtReset := by
  have hseq : SeqInv State.reset :=
    { regsWf := reset_regsWf
      classNone := ⟨fun _ => rfl, fun _ => rfl⟩
      classOf := nofun
      identCleared := fun _ => rfl
      activeSettled := nofun
      settleBound := Nat.le_refl _
      sampleActive := nofun
      initStep := nofun
      pollStep := nofun
      tickFlags := fun h => absurd rfl h
      splitOnly := nofun }
  exact inv_of_free hseq rfl rfl rfl rfl (Nat.le_refl _)

end Sys2Proof.Machine
